-- ==== Sys2Proof/Word.lean ====
section
/-! DEFINITION. The word types of the block (spec/00_scope.md R9, R12). -/

namespace Sys2Proof

/-- A sample, or one byte of a stream (R9: "a sample is 8 bits unsigned"). -/
abbrev Byte := BitVec 8

/-- A host-visible register, a command word or a `CONV` element (R9). -/
abbrev Word := BitVec 32

end Sys2Proof
end

