-- ==== Sys2Proof/Syntax.lean ====
section
/-! DEFINITION. The commands of the block (spec/30_encoding.md R91 to R97) and the names of what they act on. -/

namespace Sys2Proof

/-- The byte-wide address spaces a host can name (spec/20_memory.md R60). `CONV` has wider elements and stands apart. -/
inductive ByteSpace where
  | inp | frame1 | filt | grad | out0 | out1
deriving DecidableEq, Repr

/-- The image buffer a command reads, field `SRC` (R92). -/
inductive Src where
  | frame1 | filt | grad
deriving DecidableEq, Repr

/-- The kernel of `KROM`, field `K` (R93). -/
inductive KIdx where
  | gauss5 | sobelx | sobely
deriving DecidableEq, Repr

/-- The variant of an encoded stream, field `BIN` (R94). -/
inductive Fmt where
  | text | bin
deriving DecidableEq, Repr

/-- The stream buffer an encode writes, field `DST` (R95). -/
inductive Dst where
  | out0 | out1
deriving DecidableEq, Repr

/-- The seven commands (R91, R97): one constructor per row of the opcode table. -/
inductive Instr where
  | clear
  | decode
  | blur
  | sobel (src : Src)
  | encode (src : Src) (dst : Dst) (fmt : Fmt)
  | convolve (src : Src) (k : KIdx)
  | process (fmt : Fmt)
deriving DecidableEq, Repr

end Sys2Proof
end

