-- ==== Sys2Proof/WellFormed.lean ====
section
/-! DEFINITION. Which terms are commands of the block (spec/30_encoding.md R97). -/

namespace Sys2Proof

/-- R97: `SOBEL` may not read `GRAD`, its own destination. Every other illegal operand has no term. -/
def Instr.wf : Instr → Bool
  | .sobel .grad => false
  | .sobel .frame1 | .sobel .filt => true
  | .clear | .decode | .blur => true
  | .encode _ _ _ => true
  | .convolve _ _ => true
  | .process _ => true

end Sys2Proof
end

