-- ==== Sys2Proof/Decode.lean ====
section
/-! DEFINITION. Command words: the decoder and the encoder (spec/30_encoding.md R90 to R99). -/

namespace Sys2Proof

/-- The check of R99 that a word fails, in the order the checks are made. -/
inductive DecodeError where
  /-- R96: a bit of `ZERO` is set. -/
  | reservedBits
  /-- R91: `OP` is 7 to 15. -/
  | reservedOp
  /-- R92, R97: `SRC` is reserved, not allowed for the operation, or unused and not 0. -/
  | illegalSrc
  /-- R93, R97: `K` is reserved, or unused and not 0. -/
  | illegalK
  /-- R97: `BIN` is unused and not 0. -/
  | illegalBin
  /-- R97: `DST` is unused and not 0. -/
  | illegalDst
deriving DecidableEq, Repr

/-! The fields of `CMDW` (R90). -/

def opField (c : Word) : BitVec 4 := c.extractLsb' 0 4
def srcField (c : Word) : BitVec 2 := c.extractLsb' 4 2
def kField (c : Word) : BitVec 2 := c.extractLsb' 6 2
def binField (c : Word) : BitVec 1 := c.extractLsb' 8 1
def dstField (c : Word) : BitVec 1 := c.extractLsb' 9 1
def zeroField (c : Word) : BitVec 22 := c.extractLsb' 10 22

/-- A field the operation does not use must be 0 (R97). -/
def unused {w : Nat} (f : BitVec w) (e : DecodeError) : Except DecodeError Unit :=
  if f = 0 then .ok () else .error e

/-- R92: `SRC` = 3 is reserved. -/
def srcOperand (f : BitVec 2) : Except DecodeError Src :=
  match f.toNat with
  | 0 => .ok .frame1
  | 1 => .ok .filt
  | 2 => .ok .grad
  | _ => .error .illegalSrc

/-- R97: the row of `SOBEL` admits `SRC` 0 and 1 only. -/
def sobelOperand (f : BitVec 2) : Except DecodeError Src :=
  match f.toNat with
  | 0 => .ok .frame1
  | 1 => .ok .filt
  | _ => .error .illegalSrc

/-- R93: `K` = 3 is reserved. -/
def kOperand (f : BitVec 2) : Except DecodeError KIdx :=
  match f.toNat with
  | 0 => .ok .gauss5
  | 1 => .ok .sobelx
  | 2 => .ok .sobely
  | _ => .error .illegalK

/-- R94. -/
def fmtOperand (f : BitVec 1) : Fmt := if f = 0 then .text else .bin

/-- R95. -/
def dstOperand (f : BitVec 1) : Dst := if f = 0 then .out0 else .out1

/-- The rows of R97 that use no field. -/
def noOperand (c : Word) (i : Instr) : Except DecodeError Instr := do
  unused (srcField c) .illegalSrc
  unused (kField c) .illegalK
  unused (binField c) .illegalBin
  unused (dstField c) .illegalDst
  return i

def decodeSobel (c : Word) : Except DecodeError Instr := do
  let src ← sobelOperand (srcField c)
  unused (kField c) .illegalK
  unused (binField c) .illegalBin
  unused (dstField c) .illegalDst
  return .sobel src

def decodeEncode (c : Word) : Except DecodeError Instr := do
  let src ← srcOperand (srcField c)
  unused (kField c) .illegalK
  return .encode src (dstOperand (dstField c)) (fmtOperand (binField c))

def decodeConvolve (c : Word) : Except DecodeError Instr := do
  let src ← srcOperand (srcField c)
  let k ← kOperand (kField c)
  unused (binField c) .illegalBin
  unused (dstField c) .illegalDst
  return .convolve src k

def decodeProcess (c : Word) : Except DecodeError Instr := do
  unused (srcField c) .illegalSrc
  unused (kField c) .illegalK
  unused (dstField c) .illegalDst
  return .process (fmtOperand (binField c))

/-- The row `OP` selects (R91, R97). -/
def decodeOp (c : Word) : Except DecodeError Instr :=
  match (opField c).toNat with
  | 0 => noOperand c .clear
  | 1 => noOperand c .decode
  | 2 => noOperand c .blur
  | 3 => decodeSobel c
  | 4 => decodeEncode c
  | 5 => decodeConvolve c
  | 6 => decodeProcess c
  | _ => .error .reservedOp

/-- The command a word selects, or the first check of R99 that it fails. Total on every word (R98). -/
def decode (c : Word) : Except DecodeError Instr :=
  if zeroField c = 0 then decodeOp c else .error .reservedBits

/-! The encoder, from the word formulas of R100. -/

def Src.code : Src → Nat
  | .frame1 => 0
  | .filt => 1
  | .grad => 2

def KIdx.code : KIdx → Nat
  | .gauss5 => 0
  | .sobelx => 1
  | .sobely => 2

def Fmt.code : Fmt → Nat
  | .text => 0
  | .bin => 1

def Dst.code : Dst → Nat
  | .out0 => 0
  | .out1 => 1

/-- The word of a command (R100). -/
def encode : Instr → Word
  | .clear => 0x0#32
  | .decode => 0x1#32
  | .blur => 0x2#32
  | .sobel src => BitVec.ofNat 32 (0x3 + 0x10 * src.code)
  | .encode src dst fmt => BitVec.ofNat 32 (0x4 + 0x10 * src.code + 0x100 * fmt.code + 0x200 * dst.code)
  | .convolve src k => BitVec.ofNat 32 (0x5 + 0x10 * src.code + 0x40 * k.code)
  | .process fmt => BitVec.ofNat 32 (0x6 + 0x100 * fmt.code)

/-- The command word whose lowest `nbits` bits are those of `w`, the others 0. A command is one 32-bit word (R90). -/
def commandWord (nbits w : Nat) : Word := BitVec.ofNat 32 (w % 2 ^ nbits)

/-- The command the decoder reads from a word of the opcode table. -/
def decodeTableWord (nbits w : Nat) : Option Instr := (decode (commandWord nbits w)).toOption

end Sys2Proof
end

