-- ==== Sys2Proof/Config.lean ====
section
/-! DEFINITION. What an instance fixes (spec/00_scope.md R5 to R8) and the values the spec leaves open
(spec/93_implementation_defined.md U1, U2, U4). -/

namespace Sys2Proof

/-- The parameters of one instance. The spec makes them arguments of the model, so they stand in `State` and a
statement about every state is one about every instance; the constraints on them are `Machine.paramsWf`. -/
structure Params where
  /-- R5. -/
  maxPixels : Nat
  /-- R6. -/
  maxInBytes : Nat
  /-- R7. -/
  maxOutBytes : Nat
  /-- R8. -/
  magicBin : Byte × Byte
  /-- R8. -/
  magicText : Byte × Byte
deriving DecidableEq, Repr

/-- The parameters of `State.reset`. Sizes: DESIGN CHOICE, unsafe (log entry 5). Tokens: PRESUMED, unsafe (entry 7). -/
def Config.resetParams : Params where
  maxPixels := 1048576
  maxInBytes := 65536
  maxOutBytes := 4194327
  magicBin := (0x50#8, 0x35#8)
  magicText := (0x50#8, 0x32#8)

/-- Free value (U1, U2): what an element of a byte buffer that holds no value reads as, by space, draw and index.
Safe (log entry 8). -/
opaque Config.freeByte : ByteSpace → Nat → Nat → Byte

/-- Free value (U1, U2): the same for `CONV`, by draw and index. Safe (log entry 8). -/
opaque Config.freeConv : Nat → Nat → Word

/-- Free value (U4): what a host read of a result register returns while `BUSY`, by register index and draw. Safe (log
entry 11). -/
opaque Config.freeRegister : Nat → Nat → Word

end Sys2Proof
end

