-- ==== Sys2Proof/Machine/State.lean ====
section
/-! DEFINITION. The state of the block (spec/10_state.md R20 to R44), the host's pending accesses, and the reasons a
step can stop. -/

namespace Sys2Proof.Machine

/-- The contents of one address space: (index, element) pairs. An index that is not listed has no value: the spec
leaves it unspecified (R44). With 8-bit elements this is a list of `Host.Cell`. -/
abbrev Cells (w : Nat) := List (Nat × BitVec w)

/-- The seven buffers (R35 to R41). -/
structure Memory where
  inp : List Host.Cell
  frame1 : List Host.Cell
  filt : List Host.Cell
  grad : List Host.Cell
  conv : Cells 32
  out0 : List Host.Cell
  out1 : List Host.Cell
deriving DecidableEq, Repr

/-- `STATUS.STATE` (R24). -/
inductive RunState where
  | idle | busy | done | error
deriving DecidableEq, Repr

/-- `STATUS.PHASE` (R25). Value 7 never occurs and has no name. -/
inductive Phase where
  | none | decode | blur | sobel | encode | convolve | encode2
deriving DecidableEq, Repr

/-- The fields of `STATUS` (R23). -/
structure Status where
  state : RunState
  phase : Phase
  vFrame1 : Bool
  vFilt : Bool
  vGrad : Bool
  vConv : Bool
  vOut0 : Bool
  vOut1 : Bool
deriving DecidableEq, Repr

/-- The contents of `ERR` (spec/60_exceptions.md R280). -/
inductive ErrCode where
  | none | format | invalidDimension | truncatedData | allocation | illegalCommand | sourceInvalid
deriving DecidableEq, Repr

/-- The contents of `VARIANT` (R32). Value 3 never occurs and has no name. -/
inductive Variant where
  | none | text | binary
deriving DecidableEq, Repr

/-- One host access to one whole element (spec/20_memory.md R65). -/
inductive HostAct where
  | readReg (index : Nat)
  | writeReg (index : Nat) (v : Word)
  | readByte (sp : ByteSpace) (index : Nat)
  | writeByte (sp : ByteSpace) (index : Nat) (v : Byte)
  | readConv (index : Nat)
  | writeConv (index : Nat) (v : Word)
deriving DecidableEq, Repr

/-- Who moves next (spec/00_scope.md R10, spec/20_memory.md R68). -/
inductive Turn where
  /-- The host makes one access. -/
  | host (a : HostAct)
  /-- The block takes its step, if it has one. -/
  | block
  /-- The directive `WAIT` of spec/30_encoding.md R101: the host reads `STATUS` until it is not `BUSY`. -/
  | poll
  /-- The reset input (spec/70_reset_and_hazards.md R320). -/
  | reset
deriving DecidableEq, Repr

/-- What the host's last read returned. -/
inductive ReadData where
  | empty
  | byte (b : Byte)
  | word (v : Word)
deriving DecidableEq, Repr

/-- The whole state. `params`, `script`, `readData` and `draws` are the model's own fields (log entries 1, 5, 9, 18). -/
structure State where
  /-- The instance's parameters; no step changes them. -/
  params : Params
  /-- R22. -/
  cmd : Word
  /-- R23. -/
  status : Status
  /-- R28. -/
  err : ErrCode
  /-- R27. -/
  inLen : Word
  /-- R29: 31 bits are used. -/
  width : BitVec 31
  /-- R30: 31 bits are used. -/
  height : BitVec 31
  /-- R31: 8 bits are used. -/
  maxval : Byte
  /-- R32. -/
  variant : Variant
  /-- R33. -/
  out0Len : Word
  /-- R34. -/
  out1Len : Word
  /-- R35 to R41. -/
  mem : Memory
  /-- What the host, the scheduler and the reset input will do, first entry first. -/
  script : List Turn
  /-- What the host's last read returned. -/
  readData : ReadData
  /-- Numbers the draws of free values. -/
  draws : Nat
deriving DecidableEq, Repr

/-- The machine stops in a state that no run reaches. -/
inductive Fault where
  /-- The block's turn, `BUSY`, and `PHASE` is in no row that spec/45_pipeline_control.md R255 gives for the command.
  Raised by the sequencer. No reachable state has it (spec/93_implementation_defined.md U17). Safe. -/
  | phaseNotOfCommand
  /-- The block's turn, `BUSY`, and `CMD` holds no legal command. Raised by the block's fetch of its command. No
  reachable state has it (R253 is the only way to `BUSY`). Safe. -/
  | noCommandInExecution
deriving DecidableEq, Repr

/-- The model offers no such access, or no meaning. -/
inductive Refusal where
  /-- No meaning for the command yet: raised by `exec`'s arms only. Safe. -/
  | notModelled (mnemonic : String)
  /-- A host access to a register index that does not exist (spec/20_memory.md R66: "a model refuses it"). Raised by
  the host access operations. Safe. -/
  | noSuchRegister (index : Nat)
  /-- A host access to an element at or beyond the capacity of its space (R66: "a model refuses it"). Raised by the
  host access operations. Safe. -/
  | noSuchElement (index : Nat)
deriving DecidableEq, Repr

/-- `STATUS` = 0 (R44). -/
def Status.reset : Status where
  state := .idle
  phase := .none
  vFrame1 := false
  vFilt := false
  vGrad := false
  vConv := false
  vOut0 := false
  vOut1 := false

/-- Every element of every buffer is unspecified (R44). -/
def Memory.unspecified : Memory where
  inp := []
  frame1 := []
  filt := []
  grad := []
  conv := []
  out0 := []
  out1 := []

/-- The reset state of R44 of an instance with parameters `p`. -/
def State.resetOf (p : Params) : State where
  params := p
  cmd := 0#32
  status := Status.reset
  err := .none
  inLen := 0#32
  width := 0#31
  height := 0#31
  maxval := 0#8
  variant := .none
  out0Len := 0#32
  out1Len := 0#32
  mem := Memory.unspecified
  script := []
  readData := .empty
  draws := 0

/-- The machine right after reset (R44). -/
def State.reset : State := State.resetOf Config.resetParams

end Sys2Proof.Machine
end

