-- ==== Sys2Proof/Machine/Ops.lean ====
section
/-! DEFINITION. The named operations over buffers and registers, the error entry and the way out of `ERROR`. -/

namespace Sys2Proof.Machine

/-! ## One address space -/

/-- The element at an index, if it holds a value (spec/20_memory.md R65). -/
def Cells.read {w : Nat} : Cells w → Nat → Option (BitVec w)
  | [], _ => none
  | (a, v) :: rest, i => if a = i then some v else Cells.read rest i

/-- Store one element, keeping the indices rising. -/
def Cells.write {w : Nat} : Cells w → Nat → BitVec w → Cells w
  | [], i, v => [(i, v)]
  | (a, x) :: rest, i, v =>
    if i < a then (i, v) :: (a, x) :: rest
    else if i = a then (i, v) :: rest
    else (a, x) :: Cells.write rest i v

/-- The elements `vs` at indices `k`, `k + 1`, … -/
def Cells.ofListFrom {w : Nat} (k : Nat) : List (BitVec w) → Cells w
  | [] => []
  | v :: vs => (k, v) :: Cells.ofListFrom (k + 1) vs

/-- A buffer that holds exactly `vs` from index 0. -/
def Cells.ofList {w : Nat} (vs : List (BitVec w)) : Cells w := Cells.ofListFrom 0 vs

/-- Store `vs` from index 0 and leave the elements from `vs.length` on (R67). -/
def Cells.overlay {w : Nat} (vs : List (BitVec w)) (m : Cells w) : Cells w :=
  Cells.ofList vs ++ m.filter fun c => vs.length ≤ c.1

/-- Indices from `lo` on, strictly rising. -/
def Cells.rising {w : Nat} : Nat → Cells w → Bool
  | _, [] => true
  | lo, (a, _) :: rest => decide (lo ≤ a) && Cells.rising (a + 1) rest

/-- The canonical form of a buffer. -/
def Cells.wf {w : Nat} (m : Cells w) : Bool := Cells.rising 0 m

/-- Every listed index is below the capacity. -/
def Cells.below {w : Nat} (n : Nat) (m : Cells w) : Bool := m.all fun c => decide (c.1 < n)

/-- Every buffer is in canonical form. -/
def Memory.wf (m : Memory) : Bool :=
  Cells.wf m.inp && Cells.wf m.frame1 && Cells.wf m.filt && Cells.wf m.grad && Cells.wf m.conv
    && Cells.wf m.out0 && Cells.wf m.out1

/-- Every buffer stays within its capacity (spec/20_memory.md R60). -/
def Memory.within (p : Params) (m : Memory) : Bool :=
  Cells.below p.maxInBytes m.inp && Cells.below p.maxPixels m.frame1 && Cells.below p.maxPixels m.filt
    && Cells.below p.maxPixels m.grad && Cells.below p.maxPixels m.conv && Cells.below p.maxOutBytes m.out0
    && Cells.below p.maxOutBytes m.out1

/-- The contents of a byte buffer. -/
def Memory.bytes (m : Memory) : ByteSpace → Cells 8
  | .inp => m.inp
  | .frame1 => m.frame1
  | .filt => m.filt
  | .grad => m.grad
  | .out0 => m.out0
  | .out1 => m.out1

/-- Replace the contents of a byte buffer. -/
def Memory.setBytes (m : Memory) (sp : ByteSpace) (c : Cells 8) : Memory :=
  match sp with
  | .inp => { m with inp := c }
  | .frame1 => { m with frame1 := c }
  | .filt => { m with filt := c }
  | .grad => { m with grad := c }
  | .out0 => { m with out0 := c }
  | .out1 => { m with out1 := c }

/-- The number of elements of a byte buffer (R60). -/
def capacity (p : Params) : ByteSpace → Nat
  | .inp => p.maxInBytes
  | .frame1 | .filt | .grad => p.maxPixels
  | .out0 | .out1 => p.maxOutBytes

/-! ## The state -/

/-- `STATUS.STATE = BUSY`. -/
def State.busy (s : State) : Bool := s.status.state == .busy

/-- `WIDTH * HEIGHT` (spec/00_scope.md R15). -/
def State.sampleCount (s : State) : Nat := s.width.toNat * s.height.toNat

/-- Number the next draw of free values. -/
def State.tick (s : State) : State := { s with draws := s.draws + 1 }

/-- An element of a byte buffer as the block or the host finds it: its value, or a free one (log entry 8). -/
def State.byteAt (s : State) (sp : ByteSpace) (i : Nat) : Byte :=
  (Cells.read (s.mem.bytes sp) i).getD (Config.freeByte sp s.draws i)

/-- The same for `CONV`. -/
def State.convAt (s : State) (i : Nat) : Word :=
  (Cells.read s.mem.conv i).getD (Config.freeConv s.draws i)

/-- The input stream `IN[0..IN_LEN)` (R27, R35). -/
def State.stream (s : State) : List Byte := (List.range s.inLen.toNat).map (s.byteAt .inp)

/-- A phase writes the elements `[0..vs.length)` of its destination buffer and no other (R67). -/
def State.storeBytes (s : State) (sp : ByteSpace) (vs : List Byte) : State :=
  { s with mem := s.mem.setBytes sp (Cells.overlay vs (s.mem.bytes sp)) }

/-- The same for `CONV`. -/
def State.storeConv (s : State) (vs : List Word) : State :=
  { s with mem := { s.mem with conv := Cells.overlay vs s.mem.conv } }

/-- A buffer's new contents where the rule leaves every other element unspecified (R149, R150, R177). -/
def State.replaceBytes (s : State) (sp : ByteSpace) (vs : List Byte) : State :=
  { s with mem := s.mem.setBytes sp (Cells.ofList vs) }

/-- Error entry for code `e` (spec/60_exceptions.md R296): "That is all the entry itself does." -/
def State.raise (s : State) (e : ErrCode) : State :=
  { s with status := { s.status with state := .error, phase := .none }, err := e }

/-- Start of a command at its first phase (spec/45_pipeline_control.md R253). It is also the way out of `ERROR` (R298):
nothing was saved and nothing is restored. -/
def State.start (s : State) (p : Phase) : State :=
  { s with status := { s.status with state := .busy, phase := p }, err := .none }

/-- Phase completion with successor `p` (R257). -/
def State.finish (s : State) (p : Phase) : State :=
  if p = .none then { s with status := { s.status with state := .done, phase := .none } }
  else { s with status := { s.status with phase := p } }

/-- What the start of `PH_DECODE` (spec/40_graymap_decoder.md R131) and `CLEAR` (R254) both clear: the six valid bits, the
header registers and the output lengths. -/
def State.clearRun (s : State) : State :=
  { s with
    status := { s.status with
      vFrame1 := false, vFilt := false, vGrad := false, vConv := false, vOut0 := false, vOut1 := false }
    width := 0#31
    height := 0#31
    maxval := 0#8
    variant := .none
    out0Len := 0#32
    out1Len := 0#32 }

/-- `CLEAR` (R254): the run state is cleared and the block returns to `IDLE`; `IN`, `IN_LEN` and the contents of the
buffers stay. -/
def State.release (s : State) : State :=
  { s.clearRun with status := { s.clearRun.status with state := .idle, phase := .none }, err := .none }

/-- The reset event (spec/70_reset_and_hazards.md R320). The host's own fields and the draw counter are not the block's
and stay (log entry 15). -/
def State.resetEvent (s : State) : State :=
  { State.resetOf s.params with script := s.script, readData := s.readData, draws := s.draws }

/-! ## Registers as the host reads them -/

def RunState.code : RunState → Nat
  | .idle => 0
  | .busy => 1
  | .done => 2
  | .error => 3

def Phase.code : Phase → Nat
  | .none => 0
  | .decode => 1
  | .blur => 2
  | .sobel => 3
  | .encode => 4
  | .convolve => 5
  | .encode2 => 6

def ErrCode.code : ErrCode → Nat
  | .none => 0
  | .format => 1
  | .invalidDimension => 2
  | .truncatedData => 3
  | .allocation => 4
  | .illegalCommand => 5
  | .sourceInvalid => 6

def Variant.code : Variant → Nat
  | .none => 0
  | .text => 1
  | .binary => 2

/-- The word of `STATUS` (R23); bits 7:5 and 31:14 are 0. -/
def Status.word (t : Status) : Word :=
  BitVec.ofNat 32
    (t.state.code + 2 ^ 2 * t.phase.code + 2 ^ 8 * t.vFrame1.toNat + 2 ^ 9 * t.vFilt.toNat + 2 ^ 10 * t.vGrad.toNat
      + 2 ^ 11 * t.vConv.toNat + 2 ^ 12 * t.vOut0.toNat + 2 ^ 13 * t.vOut1.toNat)

/-- The register file (R21). -/
inductive RegName where
  | cmd | status | err | inLen | width | height | maxval | variant | out0Len | out1Len
deriving DecidableEq, Repr

/-- The register with an index; indices from 10 on do not exist (R21). -/
def RegName.ofIndex : Nat → Option RegName
  | 0 => some .cmd
  | 1 => some .status
  | 2 => some .err
  | 3 => some .inLen
  | 4 => some .width
  | 5 => some .height
  | 6 => some .maxval
  | 7 => some .variant
  | 8 => some .out0Len
  | 9 => some .out1Len
  | _ => none

def RegName.index : RegName → Nat
  | .cmd => 0
  | .status => 1
  | .err => 2
  | .inLen => 3
  | .width => 4
  | .height => 5
  | .maxval => 6
  | .variant => 7
  | .out0Len => 8
  | .out1Len => 9

/-- The column "width used" of R21. -/
def RegName.usedWidth : RegName → Nat
  | .cmd => 32
  | .status => 14
  | .err => 3
  | .inLen => 32
  | .width => 31
  | .height => 31
  | .maxval => 8
  | .variant => 2
  | .out0Len => 32
  | .out1Len => 32

/-- The registers that hold a command's results; a read of one while `BUSY` is unspecified (R69). -/
def RegName.isResult : RegName → Bool
  | .cmd | .status | .err | .inLen => false
  | .width | .height | .maxval | .variant | .out0Len | .out1Len => true

/-- The value a register holds, as a 32-bit word (R21). -/
def State.readReg (s : State) : RegName → Word
  | .cmd => s.cmd
  | .status => s.status.word
  | .err => BitVec.ofNat 32 s.err.code
  | .inLen => s.inLen
  | .width => s.width.setWidth 32
  | .height => s.height.setWidth 32
  | .maxval => s.maxval.setWidth 32
  | .variant => BitVec.ofNat 32 s.variant.code
  | .out0Len => s.out0Len
  | .out1Len => s.out1Len

end Sys2Proof.Machine
end

