-- ==== Sys2Proof/Machine/Flags.lean ====
section
/-! DEFINITION. The valid bits, the block's only flags (spec/10_state.md R26). -/

namespace Sys2Proof.Machine

/-- The valid bit of an image buffer (spec/45_pipeline_control.md R252). -/
def State.sourceValid (s : State) : Src → Bool
  | .frame1 => s.status.vFrame1
  | .filt => s.status.vFilt
  | .grad => s.status.vGrad

/-- The valid bit of a stream buffer. -/
def State.outValid (s : State) : Dst → Bool
  | .out0 => s.status.vOut0
  | .out1 => s.status.vOut1

/-- Set by a successful `PH_DECODE` (R149). -/
def State.markFrame1 (s : State) : State := { s with status := { s.status with vFrame1 := true } }

/-- Set by `PH_BLUR` (R217). -/
def State.markFilt (s : State) : State := { s with status := { s.status with vFilt := true } }

/-- Set by `PH_SOBEL` (R239). -/
def State.markGrad (s : State) : State := { s with status := { s.status with vGrad := true } }

/-- Set by `PH_CONVOLVE` (R201). -/
def State.markConv (s : State) : State := { s with status := { s.status with vConv := true } }

/-- `O_LEN <- len(S)` and `V_O <- 1` (R177). -/
def State.markOut (s : State) (d : Dst) (len : Nat) : State :=
  match d with
  | .out0 => { s with out0Len := BitVec.ofNat 32 len, status := { s.status with vOut0 := true } }
  | .out1 => { s with out1Len := BitVec.ofNat 32 len, status := { s.status with vOut1 := true } }

/-- How many elements of a byte buffer are defined to a reader (R35 to R41): all that were written for `IN`, the image's
samples if the valid bit is set, the stream's bytes if the valid bit is set. -/
def State.definedExtent (s : State) : ByteSpace → Nat
  | .inp => s.params.maxInBytes
  | .frame1 => if s.status.vFrame1 then s.sampleCount else 0
  | .filt => if s.status.vFilt then s.sampleCount else 0
  | .grad => if s.status.vGrad then s.sampleCount else 0
  | .out0 => if s.status.vOut0 then s.out0Len.toNat else 0
  | .out1 => if s.status.vOut1 then s.out1Len.toNat else 0

/-- The same for `CONV` (R39). -/
def State.convExtent (s : State) : Nat := if s.status.vConv then s.sampleCount else 0

end Sys2Proof.Machine
end

