-- ==== Sys2Proof/Machine/Operands.lean ====
section
/-! DEFINITION. The operand forms of the commands (spec/30_encoding.md R92 to R95), the kernel ROM (spec/10_state.md
R40) and the phase table (spec/45_pipeline_control.md R255). -/

namespace Sys2Proof.Machine

/-- The buffer `SRC` names (R92). -/
def srcSpace : Src → ByteSpace
  | .frame1 => .frame1
  | .filt => .filt
  | .grad => .grad

/-- The buffer `DST` names (R95). -/
def dstSpace : Dst → ByteSpace
  | .out0 => .out0
  | .out1 => .out1

/-- The samples of the image a source operand denotes, by element index (R92). -/
def State.image (s : State) (src : Src) : Nat → Byte := s.byteAt (srcSpace src)

/-! ## The kernel ROM -/

/-- A kernel: its size, its radius, its divisor and its weights, rows top to bottom (R40). -/
structure Kernel where
  size : Nat
  radius : Nat
  divisor : Int
  weights : List (List Int)
deriving DecidableEq, Repr

/-- `KROM` (R40). -/
def krom : KIdx → Kernel
  | .gauss5 =>
    { size := 5, radius := 2, divisor := 159,
      weights :=
        [[2, 4, 5, 4, 2], [4, 9, 12, 9, 4], [5, 12, 15, 12, 5], [4, 9, 12, 9, 4], [2, 4, 5, 4, 2]] }
  | .sobelx =>
    { size := 3, radius := 1, divisor := 1, weights := [[-1, 0, 1], [-2, 0, 2], [-1, 0, 1]] }
  | .sobely =>
    { size := 3, radius := 1, divisor := 1, weights := [[-1, -2, -1], [0, 0, 0], [1, 2, 1]] }

/-- The weight in table row `i`, position `j` (R40, R191). -/
def Kernel.weight (k : Kernel) (i j : Nat) : Int := (k.weights.getD i []).getD j 0

/-! ## The phase table -/

/-- One phase of a command with its operands (R255). -/
inductive PhaseOp where
  | decode
  | blur
  | sobel (src : Src)
  | encode (src : Src) (dst : Dst) (fmt : Fmt)
  | convolve (src : Src) (k : KIdx)
  | encode2 (src : Src) (dst : Dst) (fmt : Fmt)
deriving DecidableEq, Repr

/-- The value of `STATUS.PHASE` that names a phase (R25). -/
def PhaseOp.phase : PhaseOp → Phase
  | .decode => .decode
  | .blur => .blur
  | .sobel _ => .sobel
  | .encode _ _ _ => .encode
  | .convolve _ _ => .convolve
  | .encode2 _ _ _ => .encode2

/-- The phases of a command in order (R255, R259). -/
def phasesOf : Instr → List PhaseOp
  | .clear => []
  | .decode => [.decode]
  | .blur => [.blur]
  | .sobel src => [.sobel src]
  | .encode src dst fmt => [.encode src dst fmt]
  | .convolve src k => [.convolve src k]
  | .process fmt => [.decode, .blur, .sobel .filt, .encode .filt .out0 fmt, .encode2 .grad .out1 fmt]

/-- The image buffer whose valid bit a command needs (R252). -/
def sourceOf : Instr → Option Src
  | .clear | .decode | .process _ => none
  | .blur => some .frame1
  | .sobel src => some src
  | .encode src _ _ => some src
  | .convolve src _ => some src

/-- The phase of a list that `STATUS.PHASE` names. -/
def phaseNamed : List PhaseOp → Phase → Option PhaseOp
  | [], _ => none
  | op :: rest, p => if op.phase = p then some op else phaseNamed rest p

/-- The first phase of a list, `NONE` if it is empty. -/
def firstPhase : List PhaseOp → Phase
  | [] => .none
  | op :: _ => op.phase

/-- The successor function of R255 on a command's phases: `NONE` after the last. -/
def nextPhase : List PhaseOp → Phase → Phase
  | [], _ => .none
  | op :: rest, p => if op.phase = p then firstPhase rest else nextPhase rest p

end Sys2Proof.Machine
end

