-- ==== Sys2Proof/Machine/Decimal.lean ====
section
/-! DEFINITION. Decimal numbers in a stream (spec/30_encoding.md R109, R112) and the sizes they bound
(spec/00_scope.md R5 to R8). -/

namespace Sys2Proof.Machine

/-- The last `fuel` digits of `n`, most significant first, without leading zeros. -/
def decDigits : Nat → Nat → List Byte
  | 0, _ => []
  | fuel + 1, n => (if n / 10 = 0 then [] else decDigits fuel (n / 10)) ++ [BitVec.ofNat 8 (0x30 + n % 10)]

/-- `dec(n)`: the shortest ASCII decimal spelling (R112). -/
def dec (n : Nat) : List Byte := decDigits (n + 1) n

/-- `ndigits(n)` (R7). -/
def ndigits (n : Nat) : Nat := (dec n).length

/-- The least `MAX_OUT_BYTES` that R7 admits. -/
def outBound (maxPixels : Nat) : Nat := 3 + (2 * ndigits maxPixels + 2) + 4 + 4 * maxPixels

/-- The constraints on an instance's parameters (R5 to R8). -/
abbrev paramsWf (p : Params) : Prop :=
  1 ≤ p.maxPixels ∧ p.maxPixels < 2 ^ 31 ∧ p.maxInBytes < 2 ^ 32 ∧ p.maxOutBytes < 2 ^ 32
    ∧ outBound p.maxPixels ≤ p.maxOutBytes ∧ p.magicBin ≠ p.magicText

/-- A decimal digit byte (R109). -/
def isDigit (b : Byte) : Bool := decide (0x30 ≤ b.toNat) && decide (b.toNat ≤ 0x39)

/-- Read all consecutive digits onto the value `v` (R109, R112): the value and the rest of the stream. -/
def readDigits (v : Nat) : List Byte → Nat × List Byte
  | [] => (v, [])
  | b :: rest => if isDigit b then readDigits (10 * v + (b.toNat - 0x30)) rest else (v, b :: rest)

end Sys2Proof.Machine
end

