-- ==== Sys2Proof/Machine/Decoder.lean ====
section
/-! DEFINITION. The decode unit (spec/40_graymap_decoder.md R130 to R152; the grammar of the stream is
spec/30_encoding.md R104 to R116). The cursor `p` of the rules is the rest of the stream, `IN[p..L)`. -/

namespace Sys2Proof.Machine

/-- `ws(b)` (R106). -/
def ws (b : Byte) : Bool :=
  b == 0x09#8 || b == 0x0A#8 || b == 0x0B#8 || b == 0x0C#8 || b == 0x0D#8 || b == 0x20#8

/-- The loop of `gap()` (R133). `inComment` is true from a `#` up to the next line feed (R107). -/
def skipGap (inComment : Bool) : List Byte → List Byte
  | [] => []
  | b :: rest =>
    if inComment then skipGap (b != 0x0A#8) rest
    else if ws b then skipGap false rest
    else if b == 0x23#8 then skipGap true rest
    else b :: rest

/-- `gap()` (R108, R133): a gap is not empty. -/
def gap : List Byte → Except ErrCode (List Byte)
  | [] => .error .format
  | b :: rest => if ws b || b == 0x23#8 then .ok (skipGap false (b :: rest)) else .error .format

/-- One or more digits, taken greedily (R109). -/
def digits : List Byte → Except ErrCode (Nat × List Byte)
  | [] => .error .format
  | b :: rest => if isDigit b then .ok (readDigits 0 (b :: rest)) else .error .format

/-- `hint()` (R134): a header integer and the rest of the stream. -/
def hint : List Byte → Except ErrCode (Int × List Byte)
  | [] => .error .format
  | b :: rest =>
    if b == 0x2D#8 then (digits rest).map fun r => (-(r.1 : Int), r.2)
    else (digits (b :: rest)).map fun r => ((r.1 : Int), r.2)

/-- The end of the header (R110, R136): the stream ends, or exactly one whitespace byte is consumed. -/
def headerEnd : List Byte → Except ErrCode (List Byte)
  | [] => .ok []
  | b :: rest => if ws b then .ok rest else .error .format

/-- The variant the first two bytes select, and the rest of the stream (R105, R132). -/
def magic (p : Params) : List Byte → Except ErrCode (Fmt × List Byte)
  | b0 :: b1 :: rest =>
    if (b0, b1) = p.magicBin then .ok (.bin, rest)
    else if (b0, b1) = p.magicText then .ok (.text, rest)
    else .error .format
  | _ => .error .format

/-- What the header says, and the sample area. -/
structure Header where
  fmt : Fmt
  width : Int
  height : Int
  maxval : Int
  area : List Byte
deriving DecidableEq, Repr

/-- The header, left to right (R132 to R136). -/
def readHeader (p : Params) (stream : List Byte) : Except ErrCode Header := do
  let (fmt, r1) ← magic p stream
  let r2 ← gap r1
  let (width, r3) ← hint r2
  let r4 ← gap r3
  let (height, r5) ← hint r4
  let r6 ← gap r5
  let (maxval, r7) ← hint r6
  let area ← headerEnd r7
  return { fmt, width, height, maxval, area }

/-- R140, R141, R146, in this order. -/
def checkHeader (p : Params) (h : Header) : Except ErrCode Unit :=
  if h.width ≤ 0 ∨ h.height ≤ 0 then .error .invalidDimension
  else if h.maxval < 0 ∨ 255 < h.maxval then .error .format
  else if (p.maxPixels : Int) < h.width * h.height then .error .allocation
  else .ok ()

/-- The binary sample area (R111, R147): the count first, then the range of the samples. -/
def binarySamples (n maxval : Nat) (area : List Byte) : Except ErrCode (List Byte) :=
  if area.length < n then .error .truncatedData
  else if (area.take n).all fun b => decide (b.toNat ≤ maxval) then .ok (area.take n)
  else .error .format

/-- Skip whitespace before a sample token (R148). -/
def skipWs : List Byte → List Byte
  | [] => []
  | b :: rest => if ws b then skipWs rest else b :: rest

/-- What may follow the digits of a sample token: whitespace or the end of the stream (R113). -/
def tokenEnds : List Byte → Bool
  | [] => true
  | b :: _ => ws b

/-- One sample token (R148). -/
def sampleToken (maxval : Nat) (area : List Byte) : Except ErrCode (Byte × List Byte) :=
  match skipWs area with
  | [] => .error .truncatedData
  | b :: rest =>
    if isDigit b then
      let r := readDigits 0 (b :: rest)
      if !tokenEnds r.2 then .error .format
      else if maxval < r.1 then .error .format
      else .ok (BitVec.ofNat 8 r.1, r.2)
    else .error .format

/-- `n` sample tokens in stream order (R113, R148). -/
def textSamples (maxval : Nat) : Nat → List Byte → Except ErrCode (List Byte)
  | 0, _ => .ok []
  | n + 1, area => do
    let (v, rest) ← sampleToken maxval area
    let vs ← textSamples maxval n rest
    return v :: vs

/-- A decoded image (spec/00_scope.md glossary, "Image"), with the variant of its stream. -/
structure DecodedImage where
  fmt : Fmt
  width : Nat
  height : Nat
  maxval : Nat
  samples : List Byte
deriving DecidableEq, Repr

/-- The whole of R132 to R148: the image of a stream, or the first error (R152). -/
def decodeStream (p : Params) (stream : List Byte) : Except ErrCode DecodedImage := do
  let h ← readHeader p stream
  checkHeader p h
  let w := h.width.toNat
  let ht := h.height.toNat
  let m := h.maxval.toNat
  let samples ←
    match h.fmt with
    | .bin => binarySamples (w * ht) m h.area
    | .text => textSamples m (w * ht) h.area
  return { fmt := h.fmt, width := w, height := ht, maxval := m, samples }

/-- The value of `VARIANT` for a stream's variant (R132). -/
def variantOf : Fmt → Variant
  | .text => .text
  | .bin => .binary

/-- The commit of a successful decode (R149): the header registers, `V_FRAME1`, and `FRAME1[0..N)`; its other elements
are unspecified. -/
def State.commitImage (s : State) (img : DecodedImage) : State :=
  { (s.replaceBytes .frame1 img.samples).markFrame1 with
    width := BitVec.ofNat 31 img.width
    height := BitVec.ofNat 31 img.height
    maxval := BitVec.ofNat 8 img.maxval
    variant := variantOf img.fmt }

/-- How a phase ends (spec/45_pipeline_control.md R256): complete, or with an error code. -/
inductive PhaseEnd where
  | completed (s : State)
  | failed (e : ErrCode) (s : State)
deriving DecidableEq, Repr

/-- `PH_DECODE`: the run state is cleared first (R131); a failure leaves `FRAME1` unspecified and no image (R150). -/
def phDecode (s : State) : PhaseEnd :=
  match decodeStream s.params s.stream with
  | .ok img => .completed (s.clearRun.commitImage img)
  | .error e => .failed e (s.clearRun.replaceBytes .frame1 [])

end Sys2Proof.Machine
end

