-- ==== Sys2Proof/Machine/Convolution.lean ====
section
/-! DEFINITION. The 2-D convolution engine (spec/42_convolution_engine.md R190 to R201). Samples are unsigned bytes,
everything else is an exact integer (R195). -/

namespace Sys2Proof.Machine

/-- The values of a function at every image position, in row-major order (spec/00_scope.md R15). -/
def rowMajor {α : Type} (w h : Nat) (f : Nat → Nat → α) : List α :=
  (List.range h).flatMap fun row => (List.range w).map fun col => f row col

/-- `pix` (spec/20_memory.md R62): zero outside the image, rows and columns tested apart. -/
def pix (img : Nat → Byte) (w h : Nat) (r c : Int) : Int :=
  if 0 ≤ r ∧ r < h ∧ 0 ≤ c ∧ c < w then ((img (r.toNat * w + c.toNat)).toNat : Int) else 0

/-- `tdiv` (R197): truncation toward zero. -/
def tdiv (a d : Int) : Int := if 0 ≤ a then a / d else -((-a) / d)

/-- One product of the footprint sum; `i`, `j` are `dr + R`, `dc + R` (R191). -/
def tap (img : Nat → Byte) (w h : Nat) (k : Kernel) (row col i j : Nat) : Int :=
  pix img w h ((row : Int) + i - k.radius) ((col : Int) + j - k.radius) * k.weight i j

/-- `acc` (R195): the kernel is not flipped (R191). -/
def acc (img : Nat → Byte) (w h : Nat) (k : KIdx) (row col : Nat) : Int :=
  (rowMajor (krom k).size (krom k).size fun i j => tap img w h (krom k) row col i j).sum

/-- `conv` (R196), a signed integer that is not narrowed (R198). -/
def conv (img : Nat → Byte) (w h : Nat) (k : KIdx) (row col : Nat) : Int :=
  tdiv (acc img w h k row col) (krom k).divisor

/-- The `CONV` image of R201: every position, borders included, in 32-bit two's complement. -/
def convImage (img : Nat → Byte) (w h : Nat) (k : KIdx) : List Word :=
  rowMajor w h fun row col => BitVec.ofInt 32 (conv img w h k row col)

/-- `PH_CONVOLVE` (R201), before phase completion. -/
def phConvolve (src : Src) (k : KIdx) (s : State) : State :=
  (s.storeConv (convImage (s.image src) s.width.toNat s.height.toNat k)).markConv

end Sys2Proof.Machine
end

