-- ==== Sys2Proof/Machine/Encoder.lean ====
section
/-! DEFINITION. The encode unit (spec/41_graymap_encoder.md R170 to R181). -/

namespace Sys2Proof.Machine

/-- `magic` (R173). -/
def magicBytes (p : Params) : Fmt → List Byte
  | .bin => [p.magicBin.1, p.magicBin.2]
  | .text => [p.magicText.1, p.magicText.2]

/-- The header of the stream (R172). -/
def streamHeader (p : Params) (fmt : Fmt) (w h m : Nat) : List Byte :=
  magicBytes p fmt ++ [0x0A#8] ++ dec w ++ [0x20#8] ++ dec h ++ [0x0A#8] ++ dec m ++ [0x0A#8]

/-- The separator after the sample of column `col` (R176). -/
def separator (w col : Nat) : Byte := if col + 1 = w ∨ (col + 1) % 32 = 0 then 0x0A#8 else 0x20#8

/-- The body of the stream (R175, R176). -/
def streamBody (fmt : Fmt) (img : Nat → Byte) (w h : Nat) : List Byte :=
  match fmt with
  | .bin => rowMajor w h fun row col => img (row * w + col)
  | .text => (rowMajor w h fun row col => dec (img (row * w + col)).toNat ++ [separator w col]).flatten

/-- The stream `S` of R172. -/
def encodeStream (p : Params) (fmt : Fmt) (img : Nat → Byte) (w h m : Nat) : List Byte :=
  streamHeader p fmt w h m ++ streamBody fmt img w h

/-- The stream an encode phase produces from a state (R172, R174). -/
def State.encoded (s : State) (src : Src) (fmt : Fmt) : List Byte :=
  encodeStream s.params fmt (s.image src) s.width.toNat s.height.toNat s.maxval.toNat

/-- `PH_ENCODE` and `PH_ENCODE2` (R177), before phase completion: the other elements of the destination are
unspecified. -/
def phEncode (src : Src) (dst : Dst) (fmt : Fmt) (s : State) : State :=
  (s.replaceBytes (dstSpace dst) (s.encoded src fmt)).markOut dst (s.encoded src fmt).length

end Sys2Proof.Machine
end

