-- ==== Sys2Proof/Machine/Gaussian.lean ====
section
/-! DEFINITION. The Gaussian blur stage (spec/43_gaussian_blur.md R215 to R222). -/

namespace Sys2Proof.Machine

/-- The blurred image of R217: every position (R219), the quotient stored as is (R218). -/
def blurImage (img : Nat → Byte) (w h : Nat) : List Byte :=
  rowMajor w h fun row col => BitVec.ofInt 8 (conv img w h .gauss5 row col)

/-- `PH_BLUR` (R217), before phase completion. -/
def phBlur (s : State) : State :=
  (s.storeBytes .filt (blurImage (s.image .frame1) s.width.toNat s.height.toNat)).markFilt

end Sys2Proof.Machine
end

