-- ==== Sys2Proof/Machine/Sobel.lean ====
section
/-! DEFINITION. The Sobel gradient-magnitude stage (spec/44_sobel_gradient.md R230 to R242). -/

namespace Sys2Proof.Machine

/-- Set the `bits` lower bits of the root `s`, highest first, keeping its square at most `n`. -/
def isqrtBits (n : Nat) : Nat → Nat → Nat
  | 0, s => s
  | bits + 1, s =>
    if (s + 2 ^ bits) * (s + 2 ^ bits) ≤ n then isqrtBits n bits (s + 2 ^ bits) else isqrtBits n bits s

/-- `isqrt(n)`: the largest `s` with `s * s ≤ n` (spec/00_scope.md R13). -/
def isqrt (n : Nat) : Nat := isqrtBits n (n.log2 / 2 + 1) 0

/-- `rsqrt(n)`: the integer nearest to the square root (R235). -/
def rsqrt (n : Nat) : Nat := if isqrt n < n - isqrt n * isqrt n then isqrt n + 1 else isqrt n

/-- A position whose 3×3 footprint lies in the image (R233). -/
abbrev interior (w h row col : Nat) : Prop := 1 ≤ row ∧ row + 2 ≤ h ∧ 1 ≤ col ∧ col + 2 ≤ w

/-- `n` of R234. -/
def gradientSquare (img : Nat → Byte) (w h row col : Nat) : Nat :=
  (conv img w h .sobelx row col * conv img w h .sobelx row col
    + conv img w h .sobely row col * conv img w h .sobely row col).toNat

/-- The value stored at a position (R233 to R236, R239): the clamped magnitude inside, 0 on the border ring. -/
def gradient (img : Nat → Byte) (w h row col : Nat) : Nat :=
  if interior w h row col then min (rsqrt (gradientSquare img w h row col)) 255 else 0

/-- The gradient image of R239. -/
def sobelImage (img : Nat → Byte) (w h : Nat) : List Byte :=
  rowMajor w h fun row col => BitVec.ofNat 8 (gradient img w h row col)

/-- `PH_SOBEL` (R239), before phase completion. -/
def phSobel (src : Src) (s : State) : State :=
  (s.storeBytes .grad (sobelImage (s.image src) s.width.toNat s.height.toNat)).markGrad

end Sys2Proof.Machine
end

