-- ==== Sys2Proof/Machine/Sequencer.lean ====
section
/-! DEFINITION. Command acceptance and the phase sequencer (spec/45_pipeline_control.md R250 to R257). -/

namespace Sys2Proof.Machine

/-- One phase, completely and atomically (R256). Only `PH_DECODE` can fail (spec/60_exceptions.md R287). -/
def runPhase (op : PhaseOp) (s : State) : PhaseEnd :=
  match op with
  | .decode => phDecode s
  | .blur => .completed (phBlur s)
  | .sobel src => .completed (phSobel src s)
  | .encode src dst fmt => .completed (phEncode src dst fmt s)
  | .convolve src k => .completed (phConvolve src k s)
  | .encode2 src dst fmt => .completed (phEncode src dst fmt s)

/-- The source check of R252. -/
def State.sourceReady (s : State) (src : Option Src) : Bool :=
  match src with
  | none => true
  | some b => s.sourceValid b

/-- Acceptance of a legal command other than `CLEAR`, `CMD` being stored already: R252, else R253. -/
def accept (src : Option Src) (plan : List PhaseOp) (s : State) : State :=
  if s.sourceReady src then s.start (firstPhase plan) else s.raise .sourceInvalid

/-- The block step of R256 for a command with these phases: the phase `STATUS.PHASE` names, then completion (R257) or
the error entry (R296). -/
def blockPhase (plan : List PhaseOp) (s : State) : Host.Outcome State Fault Refusal :=
  match phaseNamed plan s.status.phase with
  | none => .fault .phaseNotOfCommand
  | some op =>
    match runPhase op s with
    | .completed t => .next (t.finish (nextPhase plan s.status.phase))
    | .failed e t => .next (t.raise e)

/-- One transition of a command: its pending phase while `BUSY`, else its acceptance (log entry 4). -/
def transition (src : Option Src) (plan : List PhaseOp) (s : State) : Host.Outcome State Fault Refusal :=
  if s.busy then blockPhase plan s else .next (accept src plan s)

/-- A term that no word encodes (R98): not accepted, `IllegalCommandError`; it has no phase. -/
def illegalOperand (s : State) : Host.Outcome State Fault Refusal :=
  if s.busy then .fault .phaseNotOfCommand else .next (s.raise .illegalCommand)

end Sys2Proof.Machine
end

