-- ==== Sys2Proof/Machine/Commands.lean ====
section
/-! DEFINITION. The seven commands (spec/30_encoding.md R97). The meaning of a command is one transition of it: in a
state that is not `BUSY` the host step that accepts it (spec/45_pipeline_control.md R250 to R254), in a `BUSY` state the
block step that executes its pending phase (R256). -/

namespace Sys2Proof.Machine

/-- `CLEAR` (R254): it takes effect at acceptance and starts no phase. -/
def execClear (s : State) : Host.Outcome State Fault Refusal :=
  if s.busy then .fault .phaseNotOfCommand else .next s.release

/-- `DECODE` (spec/40_graymap_decoder.md R130). -/
def execDecode (s : State) : Host.Outcome State Fault Refusal :=
  transition (sourceOf .decode) (phasesOf .decode) s

/-- `BLUR` (spec/43_gaussian_blur.md R215). -/
def execBlur (s : State) : Host.Outcome State Fault Refusal :=
  transition (sourceOf .blur) (phasesOf .blur) s

/-- `SOBEL src` (spec/44_sobel_gradient.md R230); `SOBEL GRAD` is illegal (log entry 22). -/
def execSobel (src : Src) (s : State) : Host.Outcome State Fault Refusal :=
  if src = .grad then illegalOperand s else transition (sourceOf (.sobel src)) (phasesOf (.sobel src)) s

/-- `ENCODE src, dst, fmt` (spec/41_graymap_encoder.md R170). -/
def execEncode (src : Src) (dst : Dst) (fmt : Fmt) (s : State) : Host.Outcome State Fault Refusal :=
  transition (sourceOf (.encode src dst fmt)) (phasesOf (.encode src dst fmt)) s

/-- `CONVOLVE src, k` (spec/42_convolution_engine.md R200). -/
def execConvolve (src : Src) (k : KIdx) (s : State) : Host.Outcome State Fault Refusal :=
  transition (sourceOf (.convolve src k)) (phasesOf (.convolve src k)) s

/-- `PROCESS fmt` (R258). -/
def execProcess (fmt : Fmt) (s : State) : Host.Outcome State Fault Refusal :=
  transition (sourceOf (.process fmt)) (phasesOf (.process fmt)) s

end Sys2Proof.Machine
end

