-- ==== Sys2Proof/Machine/Dispatch.lean ====
section
/-! DEFINITION. The meaning of each command. -/

namespace Sys2Proof.Machine

def exec (i : Instr) (s : State) : Host.Outcome State Fault Refusal :=
  match i with
  | .clear => Sys2Proof.Machine.execClear s
  | .decode => Sys2Proof.Machine.execDecode s
  | .blur => Sys2Proof.Machine.execBlur s
  | .sobel src => Sys2Proof.Machine.execSobel src s
  | .encode src dst fmt => Sys2Proof.Machine.execEncode src dst fmt s
  | .convolve src k => Sys2Proof.Machine.execConvolve src k s
  | .process fmt => Sys2Proof.Machine.execProcess fmt s

end Sys2Proof.Machine
end

