-- ==== Sys2Proof/Machine/Host.lean ====
section
/-! DEFINITION. Host accesses (spec/20_memory.md R65 to R69), the fetch of a command, and the host directives of
spec/30_encoding.md R101. -/

namespace Sys2Proof.Machine

/-- A host write of `c` to `CMD` (spec/45_pipeline_control.md R250): ignored while `BUSY`, else stored, decoded, and
accepted or rejected (R251) in the same step. -/
def hostWriteCmd (c : Word) (s : State) : Host.Outcome State Fault Refusal :=
  if s.busy then .next s
  else
    match decode c with
    | .error _ => .next (({ s with cmd := c }).raise .illegalCommand)
    | .ok i => exec i { s with cmd := c }

/-- `min(v, MAX_IN_BYTES)` (R27). -/
def saturate (p : Params) (v : Word) : Word := BitVec.ofNat 32 (min v.toNat p.maxInBytes)

/-- A host write of `v` to `IN_LEN` (R27). -/
def hostWriteInLen (v : Word) (s : State) : State :=
  if s.busy then s else { s with inLen := saturate s.params v }

/-- A host write to a register (R21, R65): a read-only register ignores it. -/
def hostWriteReg (index : Nat) (v : Word) (s : State) : Host.Outcome State Fault Refusal :=
  match RegName.ofIndex index with
  | none => .refused (.noSuchRegister index)
  | some .cmd => hostWriteCmd v s
  | some .inLen => .next (hostWriteInLen v s)
  | some .status | some .err | some .width | some .height | some .maxval | some .variant | some .out0Len
  | some .out1Len => .next s

/-- What a host read of a register returns: its value, or, for a result register while `BUSY`, a free value of the
register's used width (R69, U4; log entry 11). -/
def hostRegValue (s : State) (r : RegName) : Word :=
  if s.busy && r.isResult then BitVec.ofNat 32 ((Config.freeRegister r.index s.draws).toNat % 2 ^ r.usedWidth)
  else s.readReg r

/-- A host read of a register: no side effect on the block (R65). -/
def hostReadReg (index : Nat) (s : State) : Host.Outcome State Fault Refusal :=
  match RegName.ofIndex index with
  | none => .refused (.noSuchRegister index)
  | some r => .next { s.tick with readData := .word (hostRegValue s.tick r) }

/-- A host write to a byte buffer (R65): only `IN` takes it, and only while not `BUSY`. -/
def hostWriteByte (sp : ByteSpace) (index : Nat) (v : Byte) (s : State) : Host.Outcome State Fault Refusal :=
  if capacity s.params sp ≤ index then .refused (.noSuchElement index)
  else if s.busy then .next s
  else
    match sp with
    | .inp => .next { s with mem := { s.mem with inp := Cells.write s.mem.inp index v } }
    | .frame1 | .filt | .grad | .out0 | .out1 => .next s

/-- What a host read of a byte buffer returns: the element inside the defined extent, else a free value (R66); a free
value while `BUSY` (R69, U4). -/
def hostByteValue (s : State) (sp : ByteSpace) (index : Nat) : Byte :=
  if !s.busy && decide (index < s.definedExtent sp) then s.byteAt sp index
  else Config.freeByte sp s.draws index

/-- A host read of a byte buffer. -/
def hostReadByte (sp : ByteSpace) (index : Nat) (s : State) : Host.Outcome State Fault Refusal :=
  if capacity s.params sp ≤ index then .refused (.noSuchElement index)
  else .next { s.tick with readData := .byte (hostByteValue s.tick sp index) }

/-- A host write to `CONV`, which the host may only read (R39): ignored. -/
def hostWriteConv (index : Nat) (_v : Word) (s : State) : Host.Outcome State Fault Refusal :=
  if s.params.maxPixels ≤ index then .refused (.noSuchElement index) else .next s

/-- What a host read of `CONV` returns (R39, R66, R69). -/
def hostConvValue (s : State) (index : Nat) : Word :=
  if !s.busy && decide (index < s.convExtent) then s.convAt index else Config.freeConv s.draws index

/-- A host read of `CONV`. -/
def hostReadConv (index : Nat) (s : State) : Host.Outcome State Fault Refusal :=
  if s.params.maxPixels ≤ index then .refused (.noSuchElement index)
  else .next { s.tick with readData := .word (hostConvValue s.tick index) }

/-- One host access (R65). -/
def hostAccess (a : HostAct) (s : State) : Host.Outcome State Fault Refusal :=
  match a with
  | .readReg index => hostReadReg index s
  | .writeReg index v => hostWriteReg index v s
  | .readByte sp index => hostReadByte sp index s
  | .writeByte sp index v => hostWriteByte sp index v s
  | .readConv index => hostReadConv index s
  | .writeConv index v => hostWriteConv index v s

/-- The block's step (R256): it fetches the command in execution from `CMD`. While not `BUSY` it has none. -/
def blockTurn (s : State) : Host.Outcome State Fault Refusal :=
  if s.busy then
    match decode s.cmd with
    | .error _ => .fault .noCommandInExecution
    | .ok i => exec i s.tick
  else .next s

/-- The directive `WAIT`: while `BUSY` the block moves and the host asks again, then the host reads `STATUS` (log entry
23). `rest` is the script after the directive. -/
def pollTurn (rest : List Turn) (s : State) : Host.Outcome State Fault Refusal :=
  if s.busy then blockTurn s else hostReadReg RegName.status.index { s with script := rest }

/-- One transition of the two agents (spec/00_scope.md R10, R68), by the script. With nothing left in it only the block
can move; a block that is not `BUSY` waits (R44; log entry 2). -/
def transitionOf (s : State) : Host.Outcome State Fault Refusal :=
  match s.script with
  | [] => blockTurn s
  | .host a :: rest => hostAccess a { s with script := rest }
  | .block :: rest => blockTurn { s with script := rest }
  | .poll :: rest => pollTurn rest s
  | .reset :: rest => .next ({ s with script := rest }).resetEvent

/-- Place a command word where the next step finds it: as the host's next write to `CMD`, or, while `BUSY`, in `CMD`
itself with the block's turn next (log entry 3). -/
def placeCommand (c : Word) (s : State) : State :=
  if s.busy then { s with cmd := c, script := .block :: s.script }
  else { s with script := .host (.writeReg RegName.cmd.index c) :: s.script }

/-! ## Host directives (R101) -/

/-- The writes of `LOAD` from index `k` on. -/
def loadFrom (k : Nat) : List Byte → List Turn
  | [] => []
  | b :: rest => .host (.writeByte .inp k b) :: loadFrom (k + 1) rest

/-- `LOAD <bytes>`. -/
def loadTurns (bytes : List Byte) : List Turn :=
  loadFrom 0 bytes ++ [.host (.writeReg RegName.inLen.index (BitVec.ofNat 32 bytes.length))]

/-- `CMD <command>`. -/
def cmdTurns (i : Instr) : List Turn := [.host (.writeReg RegName.cmd.index (encode i))]

/-- `CMD <command>` and `WAIT`. -/
def submitTurns (i : Instr) : List Turn := cmdTurns i ++ [.poll]

/-- `RD <reg>`. -/
def readTurns (r : RegName) : List Turn := [.host (.readReg r.index)]

/-- `DUMP <buffer>` of `n` bytes, its defined extent. -/
def dumpTurns (sp : ByteSpace) (n : Nat) : List Turn := (List.range n).map fun i => .host (.readByte sp i)

/-- `DUMP CONV` of `n` elements, its defined extent. -/
def dumpConvTurns (n : Nat) : List Turn := (List.range n).map fun i => .host (.readConv i)

end Sys2Proof.Machine
end

