-- ==== Sys2Proof/Machine/Step.lean ====
section
/-! DEFINITION. The step of the machine and the placing of a command for its fetch. -/

namespace Sys2Proof.Machine

/-- One step: one transition of the host, the block or the reset input (spec/00_scope.md R10). -/
def step (s : State) : Host.Outcome State Fault Refusal := transitionOf s

/-- `s` with the command word of the opcode table placed where the very next step fetches it (log entry 3). -/
def State.withFetchWord (s : State) (nbits w : Nat) : State := placeCommand (commandWord nbits w) s

end Sys2Proof.Machine
end

