-- ==== Sys2Proof/Safety.lean ====
section
/-! DEFINITION. What a safe run is: the invariant of spec/10_state.md R45, and the words the statements are made of:
frames, the ends of a decode, and the grammar of a stream (spec/30_encoding.md R104 to R116) as a relation, independent
of the decode unit's procedure. -/

namespace Sys2Proof.Machine

/-! ## The invariant -/

/-- The elements `[0..n)` of a buffer hold values. -/
def Cells.full {w : Nat} (n : Nat) (m : Cells w) : Prop := ∀ i, i < n → (Cells.read m i).isSome = true

/-- No sample among `[0..n)` exceeds `bound`. -/
def samplesAtMost (n bound : Nat) (m : Cells 8) : Prop :=
  ∀ i b, i < n → Cells.read m i = some b → b.toNat ≤ bound

/-- The phases of a list from the one `STATUS.PHASE` names on. -/
def phasesFrom : List PhaseOp → Phase → List PhaseOp
  | [], _ => []
  | op :: rest, p => if op.phase = p then op :: rest else phasesFrom rest p

/-- The image buffer a phase reads (spec/20_memory.md R60). -/
def PhaseOp.reads : PhaseOp → Option Src
  | .decode => none
  | .blur => some .frame1
  | .sobel src => some src
  | .encode src _ _ => some src
  | .convolve src _ => some src
  | .encode2 src _ _ => some src

/-- The image buffers that hold an image after a phase, if `valid` held one before it. -/
def PhaseOp.leaves (op : PhaseOp) (valid : Src → Bool) (b : Src) : Bool :=
  match op with
  | .decode => b == .frame1
  | .blur => valid b || b == .filt
  | .sobel _ => valid b || b == .grad
  | .encode _ _ _ | .convolve _ _ | .encode2 _ _ _ => valid b

/-- Every phase of the list finds an image in the buffer it reads. -/
def supplied (valid : Src → Bool) : List PhaseOp → Bool
  | [] => true
  | op :: rest =>
    (match op.reads with
      | none => true
      | some b => valid b) && supplied (op.leaves valid) rest

/-- A `BUSY` block executes a legal command, `PHASE` names one of its phases, and every phase still to come finds its
source valid (R252, R255). -/
def running (s : State) : Prop :=
  ∃ i, decode s.cmd = .ok i ∧ phasesFrom (phasesOf i) s.status.phase ≠ []
    ∧ supplied s.sourceValid (phasesFrom (phasesOf i) s.status.phase) = true

/-- The invariant of reachable states (R45), with what makes it inductive. -/
structure Inv (s : State) : Prop where
  /-- spec/00_scope.md R5 to R8. -/
  params : paramsWf s.params
  /-- The buffers are in canonical form. -/
  canonical : s.mem.wf = true
  /-- The buffers stay within their capacities (spec/20_memory.md R60). -/
  within : s.mem.within s.params = true
  /-- R45 (a). -/
  phase : s.status.state ≠ .busy ↔ s.status.phase = .none
  /-- R45 (b). -/
  err : s.err ≠ .none ↔ s.status.state = .error
  /-- R45 (c). -/
  derived : s.status.vFilt = true ∨ s.status.vGrad = true ∨ s.status.vConv = true ∨ s.status.vOut0 = true
    ∨ s.status.vOut1 = true → s.status.vFrame1 = true
  /-- R45 (d). -/
  image : s.status.vFrame1 = true → 1 ≤ s.width.toNat ∧ 1 ≤ s.height.toNat ∧ s.sampleCount ≤ s.params.maxPixels
    ∧ s.variant ≠ .none ∧ samplesAtMost s.sampleCount s.maxval.toNat s.mem.frame1
  /-- R45 (e). -/
  noImage : s.status.vFrame1 = false → s.width = 0 ∧ s.height = 0 ∧ s.maxval = 0 ∧ s.variant = .none
  /-- R45 (f). -/
  filtered : s.status.vFilt = true → samplesAtMost s.sampleCount s.maxval.toNat s.mem.filt
  /-- R45 (h). -/
  lengths : s.out0Len.toNat ≤ s.params.maxOutBytes ∧ s.out1Len.toNat ≤ s.params.maxOutBytes
  /-- R45 (i). -/
  inLen : s.inLen.toNat ≤ s.params.maxInBytes
  /-- R26: a valid bit is 1 only if its buffer was completely written. -/
  written : (s.status.vFrame1 = true → Cells.full s.sampleCount s.mem.frame1)
    ∧ (s.status.vFilt = true → Cells.full s.sampleCount s.mem.filt)
    ∧ (s.status.vGrad = true → Cells.full s.sampleCount s.mem.grad)
    ∧ (s.status.vConv = true → Cells.full s.sampleCount s.mem.conv)
    ∧ (s.status.vOut0 = true → Cells.full s.out0Len.toNat s.mem.out0)
    ∧ (s.status.vOut1 = true → Cells.full s.out1Len.toNat s.mem.out1)
  /-- R33, R34. -/
  noOutput : (s.status.vOut0 = false → s.out0Len = 0) ∧ (s.status.vOut1 = false → s.out1Len = 0)
  /-- R24: no command has run since reset or `CLEAR`. -/
  idle : s.status.state = .idle → s.status.vFrame1 = false
  /-- R22, R253, R255. -/
  busy : s.status.state = .busy → running s

/-! ## Frames -/

/-- The parameters, `CMD`, `IN_LEN`, `IN` and the model's own fields are unchanged. -/
def sameInputs (s t : State) : Prop :=
  t.params = s.params ∧ t.cmd = s.cmd ∧ t.inLen = s.inLen
    ∧ (∀ i, Cells.read t.mem.inp i = Cells.read s.mem.inp i)
    ∧ t.script = s.script ∧ t.readData = s.readData ∧ t.draws = s.draws

/-- `WIDTH`, `HEIGHT`, `MAXVAL`, `VARIANT` are unchanged. -/
def sameHeader (s t : State) : Prop :=
  t.width = s.width ∧ t.height = s.height ∧ t.maxval = s.maxval ∧ t.variant = s.variant

/-- `OUT0_LEN`, `OUT1_LEN` are unchanged. -/
def sameLengths (s t : State) : Prop := t.out0Len = s.out0Len ∧ t.out1Len = s.out1Len

/-- The valid bits are unchanged, in the order of `STATUS`. -/
def sameValid (s t : State) : Prop :=
  t.status.vFrame1 = s.status.vFrame1 ∧ t.status.vFilt = s.status.vFilt ∧ t.status.vGrad = s.status.vGrad
    ∧ t.status.vConv = s.status.vConv ∧ t.status.vOut0 = s.status.vOut0 ∧ t.status.vOut1 = s.status.vOut1

/-- Every byte outside `changed` reads as before. -/
def sameBytes (changed : ByteSpace → Nat → Prop) (s t : State) : Prop :=
  ∀ sp i, ¬ changed sp i → Cells.read (t.mem.bytes sp) i = Cells.read (s.mem.bytes sp) i

/-- Every `CONV` element from index `n` on reads as before. -/
def sameConvFrom (n : Nat) (s t : State) : Prop :=
  ∀ i, n ≤ i → Cells.read t.mem.conv i = Cells.read s.mem.conv i

/-- No byte is written. -/
def noByte (_ : ByteSpace) (_ : Nat) : Prop := False

/-- After the phase the command goes on at phase `q`, or ends in `DONE` if `q` is `NONE` (R257). -/
def goesOn (t : State) (q : Phase) : Prop :=
  t.status.phase = q ∧ t.status.state = (if q = .none then .done else .busy) ∧ t.err = .none

/-- The next state of a host step that changes nothing of the block: only the script is one entry shorter. -/
def onlyScript (rest : List Turn) (s : State) : State := { s with script := rest }

/-- The commands whose first phase is `PH_DECODE`, and what follows that phase (R255). -/
def decodes (i : Instr) (q : Phase) : Prop := (i = .decode ∧ q = .none) ∨ (∃ fmt, i = .process fmt ∧ q = .blur)

/-- All valid bits, the header registers and the output lengths are 0 (R131). -/
def runCleared (t : State) : Prop :=
  t.status.vFrame1 = false ∧ t.status.vFilt = false ∧ t.status.vGrad = false ∧ t.status.vConv = false
    ∧ t.status.vOut0 = false ∧ t.status.vOut1 = false ∧ t.width = 0 ∧ t.height = 0 ∧ t.maxval = 0
    ∧ t.variant = .none ∧ t.out0Len = 0 ∧ t.out1Len = 0

/-- How a failed decode with code `e` leaves the block (spec/40_graymap_decoder.md R150, spec/60_exceptions.md R296).
`FRAME1` is unspecified. -/
def decodeFailed (s t : State) (e : ErrCode) : Prop :=
  t.status.state = .error ∧ t.status.phase = .none ∧ t.err = e ∧ runCleared t ∧ sameInputs s t
    ∧ sameBytes (fun sp _ => sp = .frame1) s t ∧ sameConvFrom 0 s t

/-- How a successful decode of `img` leaves the block (R131, R149), `q` being the phase after it. `FRAME1[N..)` is
unspecified. -/
def imageCommitted (s t : State) (img : DecodedImage) (q : Phase) : Prop :=
  t.width.toNat = img.width ∧ t.height.toNat = img.height ∧ t.maxval.toNat = img.maxval
    ∧ t.variant = variantOf img.fmt ∧ t.status.vFrame1 = true
    ∧ (∀ i, i < img.width * img.height → Cells.read t.mem.frame1 i = img.samples[i]?)
    ∧ t.status.vFilt = false ∧ t.status.vGrad = false ∧ t.status.vConv = false ∧ t.status.vOut0 = false
    ∧ t.status.vOut1 = false ∧ t.out0Len = 0 ∧ t.out1Len = 0 ∧ goesOn t q ∧ sameInputs s t
    ∧ sameBytes (fun sp _ => sp = .frame1) s t ∧ sameConvFrom 0 s t

/-! ## The grammar of a stream -/

/-- A whitespace byte (spec/30_encoding.md R106). -/
def wsByte (b : Byte) : Prop := b.toNat ∈ [0x09, 0x0A, 0x0B, 0x0C, 0x0D, 0x20]

/-- A digit byte (R109). -/
def digitByte (b : Byte) : Prop := 0x30 ≤ b.toNat ∧ b.toNat ≤ 0x39

/-- A whitespace byte, or a comment with its line feed (R107). -/
def gapItem (l : List Byte) : Prop :=
  (∃ b, wsByte b ∧ l = [b]) ∨ (∃ text, 0x0A#8 ∉ text ∧ l = 0x23#8 :: text ++ [0x0A#8])

/-- A gap: whitespace bytes and comments, at least one (R108). -/
def gapBytes (l : List Byte) : Prop := ∃ items, items ≠ [] ∧ (∀ x ∈ items, gapItem x) ∧ l = items.flatten

/-- The value of a digit string, most significant digit first (R112). -/
def digitsValue (l : List Byte) : Nat :=
  ((List.range l.length).map fun i => ((l.getD i 0).toNat - 0x30) * 10 ^ (l.length - 1 - i)).sum

/-- A digit string with its value (R109, R112). -/
def digitString (l : List Byte) (v : Nat) : Prop := l ≠ [] ∧ (∀ b ∈ l, digitByte b) ∧ digitsValue l = v

/-- A header integer with its value (R109). -/
def headerInt (l : List Byte) (v : Int) : Prop :=
  (∃ n : Nat, digitString l n ∧ v = n) ∨ (∃ (d : List Byte) (n : Nat), l = 0x2D#8 :: d ∧ digitString d n ∧ v = -(n : Int))

/-- The header up to the digits of `max_value` (R104). -/
def headerBytes (p : Params) (fmt : Fmt) (w h m : Int) (l : List Byte) : Prop :=
  ∃ g1 a g2 b g3 c, gapBytes g1 ∧ headerInt a w ∧ gapBytes g2 ∧ headerInt b h ∧ gapBytes g3 ∧ headerInt c m
    ∧ l = magicBytes p fmt ++ g1 ++ a ++ g2 ++ b ++ g3 ++ c

/-- What follows the header: nothing, or one whitespace byte and the sample area (R110). -/
def headerTail (tail area : List Byte) : Prop := (tail = [] ∧ area = []) ∨ (∃ b, wsByte b ∧ tail = b :: area)

/-- A stream whose header is well-formed (R104 to R110). -/
def headedStream (p : Params) (fmt : Fmt) (w h m : Int) (area stream : List Byte) : Prop :=
  ∃ hdr tail, headerBytes p fmt w h m hdr ∧ headerTail tail area ∧ stream = hdr ++ tail

/-- A text sample area that begins with these samples (R113, R114). -/
inductive textArea (m : Nat) : List Byte → List Byte → Prop where
  /-- No sample is left: what follows is the trailer. -/
  | done (trailer : List Byte) : textArea m [] trailer
  /-- Whitespace, the digits of one sample, and then whitespace or the end of the stream. -/
  | token (gap digits rest samples : List Byte) (v : Nat) (hgap : ∀ b ∈ gap, wsByte b) (hdigits : digitString digits v)
      (hrange : v ≤ m) (hend : rest = [] ∨ ∃ b rest', rest = b :: rest' ∧ wsByte b) (hrest : textArea m samples rest) :
      textArea m (BitVec.ofNat 8 v :: samples) (gap ++ digits ++ rest)

/-- The sample area holds the samples (R111, R113, R115). -/
def sampleArea (fmt : Fmt) (m : Nat) (samples area : List Byte) : Prop :=
  match fmt with
  | .bin => (∃ trailer, area = samples ++ trailer) ∧ ∀ b ∈ samples, b.toNat ≤ m
  | .text => textArea m samples area

/-- A graymap stream of the image `img` that an instance with parameters `p` can hold (R104, R115, R146). -/
def graymapStream (p : Params) (img : DecodedImage) (stream : List Byte) : Prop :=
  1 ≤ img.width ∧ 1 ≤ img.height ∧ img.maxval ≤ 255 ∧ img.width * img.height ≤ p.maxPixels
    ∧ img.samples.length = img.width * img.height
    ∧ ∃ area, headedStream p img.fmt img.width img.height img.maxval area stream
      ∧ sampleArea img.fmt img.maxval img.samples area

/-! ## Host accesses -/

/-- The access names a location that exists (spec/20_memory.md R66). -/
def locationExists (p : Params) : HostAct → Bool
  | .readReg index | .writeReg index _ => decide (index < 10)
  | .readByte sp index | .writeByte sp index _ => decide (index < capacity p sp)
  | .readConv index | .writeConv index _ => decide (index < p.maxPixels)

/-- The access is a write. -/
def HostAct.isWrite : HostAct → Bool
  | .writeReg _ _ | .writeByte _ _ _ | .writeConv _ _ => true
  | .readReg _ | .readByte _ _ | .readConv _ => false

/-- The host writes this command word at this step. -/
def writesCommand (s : State) (c : Word) : Prop :=
  s.status.state ≠ .busy ∧ ∃ rest, s.script = .host (.writeReg 0 c) :: rest

/-- The five commands that `PROCESS fmt` is equivalent to (spec/45_pipeline_control.md R261), each followed by a wait. -/
def fiveCommands (fmt : Fmt) : List Turn :=
  submitTurns .decode ++ submitTurns .blur ++ submitTurns (.sobel .filt) ++ submitTurns (.encode .filt .out0 fmt)
    ++ submitTurns (.encode .grad .out1 fmt)

/-- The reset input acts at this step. -/
def resets (s : State) : Prop := ∃ rest, s.script = .reset :: rest

/-- The block takes its step now (45 R256): it is `BUSY`, and the script gives it the turn, lets the host poll, or is
empty (log entries 1, 2, 23). A host access or the reset input is no such step. -/
def blockMoves (s : State) : Prop :=
  s.status.state = .busy ∧
    (s.script = [] ∨ (∃ rest, s.script = .block :: rest) ∨ ∃ rest, s.script = .poll :: rest)

/-- The step of the machine is the block's, and it executes this phase. -/
def performs (s : State) (p : Phase) : Prop := blockMoves s ∧ s.status.phase = p

/-- The block is about to execute this phase. -/
def executes (s : State) (p : Phase) : Prop := s.status.state = .busy ∧ s.status.phase = p

end Sys2Proof.Machine
end

