-- ==== Sys2Proof/Certificates/Slice0/Obligations.lean ====
section
/-! DEFINITION. The statements for the provers. Rules are those of spec/; what is the model's own is said. -/

open Sys2Proof Sys2Proof.Machine

/-! ## Encoding -/

/-- 30 R97, R100: the decoder and the encoder are inverse to each other, over every word and every command. -/
def Obligations.DecodeAndEncodeAreInverse : Prop :=
  ∀ (c : Word) (i : Instr), decode c = .ok i ↔ i.wf = true ∧ encode i = c

/-- 30 R97, R98 and the list of 95 section 2.7: the legal words are these 28 and no other. -/
def Obligations.LegalWordsAreExactlyTheListed : Prop :=
  ∀ c : Word, (∃ i, decode c = .ok i) ↔
    c.toNat ∈ [0x000, 0x001, 0x002, 0x003, 0x004, 0x005, 0x006, 0x013, 0x014, 0x015, 0x024, 0x025, 0x045, 0x055,
      0x065, 0x085, 0x095, 0x0A5, 0x104, 0x106, 0x114, 0x124, 0x204, 0x214, 0x224, 0x304, 0x314, 0x324]

/-- 30 R99: `ZERO` is checked before `OP`, `OP` before the operands, and these in the order `SRC`, `K`, `BIN`, `DST`,
each against the row of R97 that `OP` selects: first the rows that use no field, then `SOBEL`, `ENCODE` (where `BIN` and
`DST` hold no illegal value), `CONVOLVE`, `PROCESS` (where `BIN` holds none). -/
def Obligations.FirstFailingCheckDecides : Prop :=
  ∀ c : Word, (zeroField c ≠ 0 → decode c = .error .reservedBits) ∧
    (zeroField c = 0 → 7 ≤ (opField c).toNat → decode c = .error .reservedOp) ∧
    (zeroField c = 0 → (opField c).toNat < 3 →
      (srcField c ≠ 0 → decode c = .error .illegalSrc) ∧
      (srcField c = 0 → kField c ≠ 0 → decode c = .error .illegalK) ∧
      (srcField c = 0 → kField c = 0 → binField c ≠ 0 → decode c = .error .illegalBin) ∧
      (srcField c = 0 → kField c = 0 → binField c = 0 → dstField c ≠ 0 → decode c = .error .illegalDst)) ∧
    (zeroField c = 0 → (opField c).toNat = 3 →
      (2 ≤ (srcField c).toNat → decode c = .error .illegalSrc) ∧
      ((srcField c).toNat < 2 → kField c ≠ 0 → decode c = .error .illegalK) ∧
      ((srcField c).toNat < 2 → kField c = 0 → binField c ≠ 0 → decode c = .error .illegalBin) ∧
      ((srcField c).toNat < 2 → kField c = 0 → binField c = 0 → dstField c ≠ 0 → decode c = .error .illegalDst)) ∧
    (zeroField c = 0 → (opField c).toNat = 4 →
      ((srcField c).toNat = 3 → decode c = .error .illegalSrc) ∧
      ((srcField c).toNat < 3 → kField c ≠ 0 → decode c = .error .illegalK)) ∧
    (zeroField c = 0 → (opField c).toNat = 5 →
      ((srcField c).toNat = 3 → decode c = .error .illegalSrc) ∧
      ((srcField c).toNat < 3 → (kField c).toNat = 3 → decode c = .error .illegalK) ∧
      ((srcField c).toNat < 3 → (kField c).toNat < 3 → binField c ≠ 0 → decode c = .error .illegalBin) ∧
      ((srcField c).toNat < 3 → (kField c).toNat < 3 → binField c = 0 → dstField c ≠ 0 →
        decode c = .error .illegalDst)) ∧
    (zeroField c = 0 → (opField c).toNat = 6 →
      (srcField c ≠ 0 → decode c = .error .illegalSrc) ∧
      (srcField c = 0 → kField c ≠ 0 → decode c = .error .illegalK) ∧
      (srcField c = 0 → kField c = 0 → dstField c ≠ 0 → decode c = .error .illegalDst))

/-- 30 R100: the example words of the assembler syntax decode to the commands they spell. -/
def Obligations.ExampleWordsDecode : Prop :=
  decode 0x00000114#32 = .ok (.encode .filt .out0 .bin) ∧ decode 0x00000224#32 = .ok (.encode .grad .out1 .text) ∧
    decode 0x00000045#32 = .ok (.convolve .frame1 .sobelx) ∧ decode 0x00000015#32 = .ok (.convolve .filt .gauss5) ∧
    decode 0x00000106#32 = .ok (.process .bin) ∧ decode 0x00000006#32 = .ok (.process .text) ∧
    decode 0x00000013#32 = .ok (.sobel .filt) ∧ decode 0x00000003#32 = .ok (.sobel .frame1)

/-! ## The step and the fetch -/

/-- 45 R250: a host write of a legal word to `CMD` stores it and runs the decoded command in the same step. -/
def Obligations.StepRunsTheCommandTheHostWrites : Prop :=
  ∀ (s : State) (c : Word) (i : Instr) (rest : List Turn), s.status.state ≠ .busy →
    s.script = .host (.writeReg 0 c) :: rest → decode c = .ok i →
    step s = exec i { s with cmd := c, script := rest }

/-- 45 R256: when `BUSY`, the block's step runs the command in `CMD`. It comes when the script gives the block its turn,
when the host polls (the poll stays; log entry 23), or when nothing is left in the script (log entry 2); that `step`
numbers the draw of free values is the model's (log entry 9). -/
def Obligations.StepRunsTheCommandInExecution : Prop :=
  ∀ (s : State) (i : Instr) (rest : List Turn), s.status.state = .busy → decode s.cmd = .ok i →
    (s.script = .block :: rest → step s = exec i { s with script := rest, draws := s.draws + 1 }) ∧
    (s.script = .poll :: rest → step s = exec i { s with draws := s.draws + 1 }) ∧
    (s.script = [] → step s = exec i { s with draws := s.draws + 1 })

/-- The model's choice (log entry 3): a command placed by `withFetchWord` is the one the very next step runs. -/
def Obligations.PlacedWordIsTheNextCommandRun : Prop :=
  ∀ (s : State) (i : Instr), i.wf = true →
    (s.status.state ≠ .busy → step (s.withFetchWord 32 (encode i).toNat) = exec i { s with cmd := encode i }) ∧
    (s.status.state = .busy →
      step (s.withFetchWord 32 (encode i).toNat) = exec i { s with cmd := encode i, draws := s.draws + 1 })

/-- The model's choice (log entry 2), after 45 R256 "the block agent has no step": a block that is not `BUSY` and has
nothing coming waits. -/
def Obligations.BlockWithoutAStepWaits : Prop :=
  ∀ (s : State) (rest : List Turn), s.status.state ≠ .busy →
    (s.script = [] → step s = .next s) ∧ (s.script = .block :: rest → step s = .next (onlyScript rest s))

/-! ## Acceptance -/

/-- 45 R251: an illegal word is stored, raises `IllegalCommandError`, and changes nothing else. -/
def Obligations.IllegalWordRaisesIllegalCommand : Prop :=
  ∀ (s : State) (c : Word) (e : DecodeError) (rest : List Turn), s.status.state ≠ .busy →
    s.script = .host (.writeReg 0 c) :: rest → decode c = .error e →
    ∃ t, step s = .next t ∧ t.status.state = .error ∧ t.status.phase = .none ∧ t.err = .illegalCommand ∧
      sameInputs { s with cmd := c, script := rest } t ∧ sameHeader s t ∧ sameLengths s t ∧ sameValid s t ∧
      sameBytes noByte s t ∧ sameConvFrom 0 s t

/-- 45 R252, 60 R286: a command whose source holds no image raises `SourceInvalidError` and changes nothing else. -/
def Obligations.InvalidSourceRaisesSourceInvalid : Prop :=
  ∀ (s : State) (i : Instr) (b : Src), s.status.state ≠ .busy →
    ((i = .blur ∧ b = .frame1) ∨ (i = .sobel b ∧ b ≠ .grad) ∨ (∃ d f, i = .encode b d f) ∨ (∃ k, i = .convolve b k)) →
    ((b = .frame1 ∧ s.status.vFrame1 = false) ∨ (b = .filt ∧ s.status.vFilt = false) ∨
      (b = .grad ∧ s.status.vGrad = false)) →
    ∃ t, exec i s = .next t ∧ t.status.state = .error ∧ t.status.phase = .none ∧ t.err = .sourceInvalid ∧
      sameInputs s t ∧ sameHeader s t ∧ sameLengths s t ∧ sameValid s t ∧ sameBytes noByte s t ∧ sameConvFrom 0 s t

/-- 45 R253 with the first phases of R255: a legal command with its source valid starts; `ERR` becomes 0, `STATE` `BUSY`,
`PHASE` the first phase, and nothing else changes. -/
def Obligations.ReadyCommandStarts : Prop :=
  ∀ (s : State) (i : Instr) (p : Phase), s.status.state ≠ .busy →
    ((i = .decode ∧ p = .decode) ∨ (∃ f, i = .process f ∧ p = .decode) ∨
      (i = .blur ∧ p = .blur ∧ s.status.vFrame1 = true) ∨
      (i = .sobel .frame1 ∧ p = .sobel ∧ s.status.vFrame1 = true) ∨
      (i = .sobel .filt ∧ p = .sobel ∧ s.status.vFilt = true) ∨
      (∃ b d f, i = .encode b d f ∧ p = .encode ∧ s.sourceValid b = true) ∨
      (∃ b k, i = .convolve b k ∧ p = .convolve ∧ s.sourceValid b = true)) →
    ∃ t, exec i s = .next t ∧ t.err = .none ∧ t.status.state = .busy ∧ t.status.phase = p ∧
      sameInputs s t ∧ sameHeader s t ∧ sameLengths s t ∧ sameValid s t ∧ sameBytes noByte s t ∧ sameConvFrom 0 s t

/-- 30 R97, R98, DEDUCED for the term that no word encodes (log entry 22): `SOBEL GRAD` is not accepted. -/
def Obligations.SobelOfGradIsIllegal : Prop :=
  ∀ s : State, s.status.state ≠ .busy →
    ∃ t, exec (.sobel .grad) s = .next t ∧ t.status.state = .error ∧ t.status.phase = .none ∧
      t.err = .illegalCommand ∧ sameInputs s t ∧ sameHeader s t ∧ sameLengths s t ∧ sameValid s t ∧
      sameBytes noByte s t ∧ sameConvFrom 0 s t

/-- 45 R254: `CLEAR` releases the run and keeps `IN`, `IN_LEN` and the contents of all buffers. -/
def Obligations.ClearReleasesTheRun : Prop :=
  ∀ s : State, s.status.state ≠ .busy →
    ∃ t, exec .clear s = .next t ∧ t.status.state = .idle ∧ t.status.phase = .none ∧ t.err = .none ∧ runCleared t ∧
      sameInputs s t ∧ sameBytes noByte s t ∧ sameConvFrom 0 s t

/-- 70 R321: the host's `CLEAR` leaves every register as reset does, but for `IN_LEN`. -/
def Obligations.ClearMatchesResetButForInLen : Prop :=
  ∀ (s : State) (rest : List Turn) (r : RegName), s.status.state ≠ .busy → r ≠ .inLen →
    s.script = .host (.writeReg 0 0) :: rest →
    ∃ t, step s = .next t ∧ t.readReg r = (State.resetOf s.params).readReg r ∧ t.inLen = s.inLen

/-! ## Decode -/

/-- 40 R130 to R149, 30 R104 to R115: `DECODE`, and the first phase of `PROCESS`, complete on every graymap stream, with
its image. -/
def Obligations.DecodeCompletesOnGraymapStreams : Prop :=
  ∀ (s : State) (i : Instr) (q : Phase) (img : DecodedImage), decodes i q → paramsWf s.params → executes s .decode →
    s.err = .none → graymapStream s.params img s.stream →
    ∃ t, exec i s = .next t ∧ imageCommitted s t img q

/-- 40 R150, R152: on every other stream the phase ends in one of the four decode errors and produces no image. With
`DecodeCompletesOnGraymapStreams`: the decode unit accepts exactly the grammar. -/
def Obligations.DecodeRejectsEveryOtherStream : Prop :=
  ∀ (s : State) (i : Instr) (q : Phase), decodes i q → paramsWf s.params → executes s .decode →
    (∀ img, ¬ graymapStream s.params img s.stream) →
    ∃ t e, exec i s = .next t ∧ decodeFailed s t e ∧ e ∈ [.format, .invalidDimension, .truncatedData, .allocation]

/-- 40 R132: a stream that does not begin with a magic token raises `FormatError`. -/
def Obligations.UnrecognisedMagicRaisesFormat : Prop :=
  ∀ (s : State) (i : Instr) (q : Phase), decodes i q → executes s .decode →
    (∀ rest, s.stream ≠ magicBytes s.params .bin ++ rest ∧ s.stream ≠ magicBytes s.params .text ++ rest) →
    ∃ t, exec i s = .next t ∧ decodeFailed s t .format

/-- 40 R133 to R136: a stream with a magic token whose header is not well-formed raises `FormatError`. -/
def Obligations.MalformedHeaderRaisesFormat : Prop :=
  ∀ (s : State) (i : Instr) (q : Phase), decodes i q → executes s .decode →
    (∀ fmt w h m area, ¬ headedStream s.params fmt w h m area s.stream) →
    ∃ t, exec i s = .next t ∧ decodeFailed s t .format

/-- 40 R140: after a well-formed header, a width or height that is not positive raises `InvalidDimensionError`, whatever
`max_value` and the samples are. -/
def Obligations.NonPositiveDimensionRaisesInvalidDimension : Prop :=
  ∀ (s : State) (i : Instr) (q : Phase) (fmt : Fmt) (w h m : Int) (area : List Byte), decodes i q → paramsWf s.params →
    executes s .decode → headedStream s.params fmt w h m area s.stream → w ≤ 0 ∨ h ≤ 0 →
    ∃ t, exec i s = .next t ∧ decodeFailed s t .invalidDimension

/-- 40 R141: with positive dimensions, a `max_value` outside `0 .. 255` raises `FormatError`. -/
def Obligations.MaxValueOutOfRangeRaisesFormat : Prop :=
  ∀ (s : State) (i : Instr) (q : Phase) (fmt : Fmt) (w h m : Int) (area : List Byte), decodes i q → paramsWf s.params →
    executes s .decode → headedStream s.params fmt w h m area s.stream → 0 < w → 0 < h → m < 0 ∨ 255 < m →
    ∃ t, exec i s = .next t ∧ decodeFailed s t .format

/-- 40 R146: an image that the buffers cannot hold raises `AllocationError`, whatever the samples are. -/
def Obligations.TooManyPixelsRaisesAllocation : Prop :=
  ∀ (s : State) (i : Instr) (q : Phase) (fmt : Fmt) (w h m : Int) (area : List Byte), decodes i q → paramsWf s.params →
    executes s .decode → headedStream s.params fmt w h m area s.stream → 0 < w → 0 < h → 0 ≤ m → m ≤ 255 →
    (s.params.maxPixels : Int) < w * h →
    ∃ t, exec i s = .next t ∧ decodeFailed s t .allocation

/-- 40 R147: in the binary variant too few sample bytes raise `TruncatedDataError`, whatever they are, and enough of them
with one above `max_value` raise `FormatError`. -/
def Obligations.BinarySamplesAreCountedThenRanged : Prop :=
  ∀ (s : State) (i : Instr) (q : Phase) (w h m : Int) (area : List Byte), decodes i q → paramsWf s.params →
    executes s .decode → headedStream s.params .bin w h m area s.stream → 0 < w → 0 < h → 0 ≤ m → m ≤ 255 →
    w * h ≤ s.params.maxPixels →
    ((area.length : Int) < w * h → ∃ t, exec i s = .next t ∧ decodeFailed s t .truncatedData) ∧
    (w * h ≤ area.length → (∃ b ∈ area.take (w * h).toNat, m < b.toNat) →
      ∃ t, exec i s = .next t ∧ decodeFailed s t .format)

/-- 40 R148: text sample errors in stream order. The area is fewer than `N` good tokens (each a gap and its digits),
`blank` whitespace, and `rest`. If `rest` is empty, `TruncatedDataError`; if it begins with a byte that is no digit, or
with a token that is out of range or not followed by whitespace or the end of the stream, `FormatError`. -/
def Obligations.TextSampleErrorsComeInStreamOrder : Prop :=
  ∀ (s : State) (i : Instr) (q : Phase) (w h m : Int) (tokens : List (List Byte × List Byte)) (blank rest : List Byte),
    decodes i q → paramsWf s.params → executes s .decode →
    headedStream s.params .text w h m ((tokens.flatMap fun x => x.1 ++ x.2) ++ blank ++ rest) s.stream →
    0 < w → 0 < h → 0 ≤ m → m ≤ 255 → w * h ≤ s.params.maxPixels → (tokens.length : Int) < w * h →
    (∀ x ∈ tokens, (∀ b ∈ x.1, wsByte b) ∧ ∃ v : Nat, digitString x.2 v ∧ (v : Int) ≤ m) →
    (∀ x ∈ tokens.tail, x.1 ≠ []) → (∀ b ∈ blank, wsByte b) → (tokens = [] ∨ blank ≠ [] ∨ rest = []) →
    (rest = [] → ∃ t, exec i s = .next t ∧ decodeFailed s t .truncatedData) ∧
    ((∃ b more, rest = b :: more ∧ ¬ wsByte b ∧ ¬ digitByte b) →
      ∃ t, exec i s = .next t ∧ decodeFailed s t .format) ∧
    ((∃ (d more : List Byte) (v : Nat), rest = d ++ more ∧ digitString d v ∧ (∀ b, more.head? = some b → ¬ digitByte b) ∧
        (m < v ∨ ∃ b, more.head? = some b ∧ ¬ wsByte b)) →
      ∃ t, exec i s = .next t ∧ decodeFailed s t .format)

/-- 70 R322: what a decode leaves depends on the parameters and the input stream, on nothing of the run before it.
`FRAME1` is compared where a successful decode defines it, in `[0..N)` (40 R149). -/
def Obligations.DecodeForgetsTheRunBefore : Prop :=
  ∀ (s s' t t' : State) (i : Instr) (q : Phase), decodes i q → executes s .decode → executes s' .decode →
    s.params = s'.params → s.stream = s'.stream → exec i s = .next t → exec i s' = .next t' →
    sameHeader t t' ∧ sameLengths t t' ∧ sameValid t t' ∧ t.status = t'.status ∧
      (t.status.state = .error → t.err = t'.err) ∧
      (t.status.state ≠ .error → ∀ k, k < t.sampleCount → Cells.read t.mem.frame1 k = Cells.read t'.mem.frame1 k)

/-! ## Convolution, blur, gradient -/

/-- 42 R197: `tdiv` truncates toward zero. -/
def Obligations.TdivTruncatesTowardZero : Prop :=
  ∀ a d : Int, 1 ≤ d → (0 ≤ a → tdiv a d * d ≤ a ∧ a < (tdiv a d + 1) * d ∧ 0 ≤ tdiv a d) ∧
    (a < 0 → a ≤ tdiv a d * d ∧ (tdiv a d - 1) * d < a ∧ tdiv a d ≤ 0)

/-- 42 R194 to R196 with the tables of 10 R40, 44 R232: the three kernels written out as sums over the padded footprint;
`s dr dc` is the sample at `(row + dr, col + dc)`, 0 outside the image. -/
def Obligations.ConvIsThePaddedKernelSum : Prop :=
  ∀ (img : Nat → Byte) (w h row col : Nat) (s : Int → Int → Int) (sum : Int),
    (∀ dr dc : Int, s dr dc =
      if 0 ≤ (row : Int) + dr ∧ (row : Int) + dr < h ∧ 0 ≤ (col : Int) + dc ∧ (col : Int) + dc < w then
        ((img (((row : Int) + dr) * w + ((col : Int) + dc)).toNat).toNat : Int) else 0) →
    sum = 2 * (s (-2) (-2) + s (-2) 2 + s 2 (-2) + s 2 2) +
          4 * (s (-2) (-1) + s (-2) 1 + s 2 (-1) + s 2 1 + s (-1) (-2) + s (-1) 2 + s 1 (-2) + s 1 2) +
          5 * (s (-2) 0 + s 2 0 + s 0 (-2) + s 0 2) + 9 * (s (-1) (-1) + s (-1) 1 + s 1 (-1) + s 1 1) +
          12 * (s (-1) 0 + s 1 0 + s 0 (-1) + s 0 1) + 15 * s 0 0 →
    acc img w h .gauss5 row col = sum ∧ conv img w h .gauss5 row col * 159 ≤ sum ∧
      sum < (conv img w h .gauss5 row col + 1) * 159 ∧
      conv img w h .sobelx row col = (s (-1) 1 - s (-1) (-1)) + 2 * (s 0 1 - s 0 (-1)) + (s 1 1 - s 1 (-1)) ∧
      conv img w h .sobely row col = (s 1 (-1) - s (-1) (-1)) + 2 * (s 1 0 - s (-1) 0) + (s 1 1 - s (-1) 1)

/-- 42 R199: the bounds of the engine's results. -/
def Obligations.ConvStaysInItsBounds : Prop :=
  ∀ (img : Nat → Byte) (w h row col : Nat),
    0 ≤ acc img w h .gauss5 row col ∧ acc img w h .gauss5 row col ≤ 40545 ∧ 0 ≤ conv img w h .gauss5 row col ∧
      conv img w h .gauss5 row col ≤ 255 ∧ -1020 ≤ conv img w h .sobelx row col ∧
      conv img w h .sobelx row col ≤ 1020 ∧ -1020 ≤ conv img w h .sobely row col ∧ conv img w h .sobely row col ≤ 1020

/-- 43 R220 (b): a blurred sample is at most the largest source sample. -/
def Obligations.BlurNeverExceedsTheLargestSample : Prop :=
  ∀ (img : Nat → Byte) (w h row col m : Nat), (∀ k, k < w * h → (img k).toNat ≤ m) →
    conv img w h .gauss5 row col ≤ m

/-- 43 R220 (a): a uniform image of value `v` blurs to `v` with full kernel support and to less everywhere else. -/
def Obligations.UniformImageDarkensAtTheBorder : Prop :=
  ∀ (img : Nat → Byte) (w h row col v : Nat), (∀ k, k < w * h → (img k).toNat = v) → row < h → col < w → 1 ≤ v →
    (2 ≤ row ∧ row + 3 ≤ h ∧ 2 ≤ col ∧ col + 3 ≤ w → conv img w h .gauss5 row col = v) ∧
    (¬ (2 ≤ row ∧ row + 3 ≤ h ∧ 2 ≤ col ∧ col + 3 ≤ w) → conv img w h .gauss5 row col < v)

/-- 42 R201: `CONVOLVE` stores the signed result at every position, borders included, and sets `V_CONV`. -/
def Obligations.ConvolveStoresEveryPosition : Prop :=
  ∀ (s : State) (src : Src) (k : KIdx), executes s .convolve → s.err = .none →
    ∃ t, exec (.convolve src k) s = .next t ∧ goesOn t .none ∧ t.status.vConv = true ∧
      (∀ row col, row < s.height.toNat → col < s.width.toNat →
        ∃ v, Cells.read t.mem.conv (row * s.width.toNat + col) = some v ∧
          v.toInt = conv (s.image src) s.width.toNat s.height.toNat k row col) ∧
      sameConvFrom s.sampleCount s t ∧ sameBytes noByte s t ∧ sameInputs s t ∧ sameHeader s t ∧ sameLengths s t ∧
      sameValid { s with status := { s.status with vConv := true } } t

/-- 43 R217, R218, 45 R259 (2): `BLUR`, and the second phase of `PROCESS`, store the Gaussian result at every position and
set `V_FILT`. -/
def Obligations.BlurStoresEveryPosition : Prop :=
  ∀ (s : State) (i : Instr) (q : Phase), (i = .blur ∧ q = .none) ∨ (∃ f, i = .process f ∧ q = .sobel) →
    executes s .blur → s.err = .none →
    ∃ t, exec i s = .next t ∧ goesOn t q ∧ t.status.vFilt = true ∧
      (∀ row col, row < s.height.toNat → col < s.width.toNat →
        ∃ b, Cells.read t.mem.filt (row * s.width.toNat + col) = some b ∧
          (b.toNat : Int) = conv (s.image .frame1) s.width.toNat s.height.toNat .gauss5 row col) ∧
      sameBytes (fun sp k => sp = .filt ∧ k < s.sampleCount) s t ∧ sameConvFrom 0 s t ∧ sameInputs s t ∧
      sameHeader s t ∧ sameLengths s t ∧ sameValid { s with status := { s.status with vFilt := true } } t

/-- 44 R233 to R236, R239, 45 R259 (3): `SOBEL src`, and the third phase of `PROCESS` on `FILT`, store at an interior
position the integer nearest to the square root of `Gx² + Gy²`, at most 255, and 0 on the border ring; `V_GRAD` is set. -/
def Obligations.SobelStoresTheClampedMagnitude : Prop :=
  ∀ (s : State) (i : Instr) (src : Src) (q : Phase),
    (i = .sobel src ∧ src ≠ .grad ∧ q = .none) ∨ (∃ f, i = .process f ∧ src = .filt ∧ q = .encode) →
    executes s .sobel → s.err = .none →
    ∃ t, exec i s = .next t ∧ goesOn t q ∧ t.status.vGrad = true ∧
      (∀ row col, row < s.height.toNat → col < s.width.toNat →
        ∃ b, Cells.read t.mem.grad (row * s.width.toNat + col) = some b ∧
          (¬ interior s.width.toNat s.height.toNat row col → b = 0) ∧
          (interior s.width.toNat s.height.toNat row col →
            ∃ n mag : Int, n = conv (s.image src) s.width.toNat s.height.toNat .sobelx row col ^ 2 +
                conv (s.image src) s.width.toNat s.height.toNat .sobely row col ^ 2 ∧
              0 ≤ mag ∧ (mag = 0 ∨ (2 * mag - 1) ^ 2 < 4 * n) ∧ 4 * n < (2 * mag + 1) ^ 2 ∧
              (b.toNat : Int) = min mag 255)) ∧
      sameBytes (fun sp k => sp = .grad ∧ k < s.sampleCount) s t ∧ sameConvFrom 0 s t ∧ sameInputs s t ∧
      sameHeader s t ∧ sameLengths s t ∧ sameValid { s with status := { s.status with vGrad := true } } t

/-- 44 R235: `isqrt` is the integer square root and `rsqrt` the integer nearest to the square root. -/
def Obligations.RsqrtIsTheNearestInteger : Prop :=
  ∀ n : Nat, isqrt n * isqrt n ≤ n ∧ n < (isqrt n + 1) * (isqrt n + 1) ∧
    4 * n < (2 * rsqrt n + 1) ^ 2 ∧ (rsqrt n = 0 ∨ (2 * rsqrt n - 1) ^ 2 < 4 * n)

/-- 44 R240 (e): adding a constant to every source sample does not change the gradient. -/
def Obligations.GradientIgnoresAConstantOffset : Prop :=
  ∀ (img img' : Nat → Byte) (w h d : Nat), (∀ k, k < w * h → (img' k).toNat = (img k).toNat + d) →
    sobelImage img' w h = sobelImage img w h

/-! ## Encode -/

/-- 30 R112: `dec` is the shortest decimal spelling: digits of that value, no leading zero except for 0. -/
def Obligations.DecIsTheShortestSpelling : Prop :=
  ∀ n : Nat, digitString (dec n) n ∧ ((dec n).head? = some 0x30#8 → n = 0 ∧ dec n = [0x30#8])

/-- 41 R172 to R177, 45 R259 (4), (5): an encode phase stores header and body from index 0 and sets the length and the
valid bit of its destination, and writes nothing else that a rule defines. It holds for `ENCODE` and for both encodes of
`PROCESS`. -/
def Obligations.EncodeStoresTheStream : Prop :=
  ∀ (s : State) (i : Instr) (src : Src) (dst : Dst) (fmt : Fmt) (p q : Phase) (stream : List Byte),
    (i = .encode src dst fmt ∧ p = .encode ∧ q = .none) ∨
      (i = .process fmt ∧ src = .filt ∧ dst = .out0 ∧ p = .encode ∧ q = .encode2) ∨
      (i = .process fmt ∧ src = .grad ∧ dst = .out1 ∧ p = .encode2 ∧ q = .none) →
    executes s p → s.err = .none →
    stream = magicBytes s.params fmt ++ [0x0A#8] ++ dec s.width.toNat ++ [0x20#8] ++ dec s.height.toNat ++ [0x0A#8] ++
      dec s.maxval.toNat ++ [0x0A#8] ++
      (match fmt with
        | .bin => (List.range s.sampleCount).map (s.image src)
        | .text => (List.range s.sampleCount).flatMap fun k => dec (s.image src k).toNat ++
            [if k % s.width.toNat + 1 = s.width.toNat ∨ (k % s.width.toNat + 1) % 32 = 0 then 0x0A#8 else 0x20#8]) →
    stream.length < 2 ^ 32 →
    ∃ t, exec i s = .next t ∧ goesOn t q ∧
      (∀ k, k < stream.length → Cells.read (t.mem.bytes (dstSpace dst)) k = stream[k]?) ∧
      (dst = .out0 → t.status.vOut0 = true ∧ t.out0Len.toNat = stream.length ∧ t.out1Len = s.out1Len ∧
        sameValid { s with status := { s.status with vOut0 := true } } t) ∧
      (dst = .out1 → t.status.vOut1 = true ∧ t.out1Len.toNat = stream.length ∧ t.out0Len = s.out0Len ∧
        sameValid { s with status := { s.status with vOut1 := true } } t) ∧
      sameBytes (fun sp _ => sp = dstSpace dst) s t ∧ sameConvFrom 0 s t ∧ sameInputs s t ∧ sameHeader s t

/-- 00 R7, 41 R171, R178: an encode never overflows its buffer. -/
def Obligations.EncodeNeverOverflows : Prop :=
  ∀ (s : State) (src : Src) (fmt : Fmt), Inv s → s.status.vFrame1 = true →
    (s.encoded src fmt).length ≤ s.params.maxOutBytes

/-- 41 R179, at the block an inference of the spec from R172 to R176: decoding what an encode of an image wrote gives that
image back, in both variants. `u` is the state before the encode, `u'` after it; `s` is about to decode with the same
bytes in `IN`. -/
def Obligations.DecodeOfEncodeIsTheImage : Prop :=
  ∀ (u u' s : State) (src : Src) (dst : Dst) (fmt : Fmt), Inv u → executes u .encode → u.sourceValid src = true →
    (∀ k, k < u.sampleCount → (u.image src k).toNat ≤ u.maxval.toNat) → exec (.encode src dst fmt) u = .next u' →
    s.params = u.params → executes s .decode →
    s.inLen = (match dst with | .out0 => u'.out0Len | .out1 => u'.out1Len) →
    (∀ k, k < s.inLen.toNat → Cells.read s.mem.inp k = Cells.read (u'.mem.bytes (dstSpace dst)) k) →
    ∃ t, exec .decode s = .next t ∧ t.status.state = .done ∧ t.width = u.width ∧ t.height = u.height ∧
      t.maxval = u.maxval ∧ t.variant = variantOf fmt ∧ t.status.vFrame1 = true ∧
      ∀ k, k < u.sampleCount → Cells.read t.mem.frame1 k = some (u.image src k)

/-- 41 R181, 70 R335: an encoded image with a sample above `MAXVAL` is emitted as it is, and decoding it raises
`FormatError`. -/
def Obligations.StreamAboveMaxvalIsRejected : Prop :=
  ∀ (u s : State) (src : Src) (fmt : Fmt), Inv u → u.status.vFrame1 = true →
    (∃ k, k < u.sampleCount ∧ u.maxval.toNat < (u.image src k).toNat) →
    s.params = u.params → executes s .decode → s.stream = u.encoded src fmt →
    ∃ t, exec .decode s = .next t ∧ decodeFailed s t .format

/-! ## Process -/

/-- 45 R261: an inference of the spec from R253 to R259: `PROCESS fmt` leaves the same state as the five commands, but for
`CMD`; after a decode that fails, the same state as `DECODE` alone. The draw counter that may differ too (log entry 9) and
the polls that stand for the waiting (log entry 23) are the model's. -/
def Obligations.ProcessEqualsTheFiveCommands : Prop :=
  ∀ (s : State) (fmt : Fmt), paramsWf s.params → s.status.state ≠ .busy → s.script = [] →
    ((∃ img, graymapStream s.params img s.tick.stream) →
      ∃ a b, Host.Core.run Sys2Proof.core 7 { s with script := submitTurns (.process fmt) } = .next a ∧
        Host.Core.run Sys2Proof.core 15 { s with script := fiveCommands fmt } = .next b ∧
        a.status.state = .done ∧ b = { a with cmd := b.cmd, draws := b.draws }) ∧
    ((∀ img, ¬ graymapStream s.params img s.tick.stream) →
      ∃ a b, Host.Core.run Sys2Proof.core 3 { s with script := submitTurns (.process fmt) } = .next a ∧
        Host.Core.run Sys2Proof.core 3 { s with script := submitTurns .decode } = .next b ∧
        a.status.state = .error ∧ b = { a with cmd := b.cmd })

/-- 45 R258, R259: on a graymap stream, `PROCESS` runs from the host's write through its five phases to `DONE`, with the
valid bits R259 names. That the block takes its five steps on the script that is empty after the write (log entry 2), and
that the stream is read at the next draw number (log entry 9), are the model's. -/
def Obligations.ProcessRunsToDone : Prop :=
  ∀ (s : State) (fmt : Fmt) (img : DecodedImage), paramsWf s.params → s.status.state ≠ .busy →
    s.script = cmdTurns (.process fmt) → graymapStream s.params img s.tick.stream →
    ∃ t, Host.Core.run Sys2Proof.core 6 s = .next t ∧ goesOn t .none ∧ t.status.vFrame1 = true ∧
      t.status.vFilt = true ∧ t.status.vGrad = true ∧ t.status.vConv = false ∧ t.status.vOut0 = true ∧
      t.status.vOut1 = true ∧ t.width.toNat = img.width ∧ t.height.toNat = img.height ∧
      t.maxval.toNat = img.maxval ∧ t.variant = variantOf img.fmt

/-! ## Registers and host accesses -/

/-- 10 R23 to R26: the layout of the word a host reads from `STATUS`. -/
def Obligations.StatusWordLayout : Prop :=
  ∀ t : Status,
    (t.word.extractLsb' 0 2).toNat = (match t.state with | .idle => 0 | .busy => 1 | .done => 2 | .error => 3) ∧
    (t.word.extractLsb' 2 3).toNat =
      (match t.phase with
        | .none => 0 | .decode => 1 | .blur => 2 | .sobel => 3 | .encode => 4 | .convolve => 5 | .encode2 => 6) ∧
    t.word.extractLsb' 5 3 = 0 ∧ t.word.getLsbD 8 = t.vFrame1 ∧ t.word.getLsbD 9 = t.vFilt ∧
    t.word.getLsbD 10 = t.vGrad ∧ t.word.getLsbD 11 = t.vConv ∧ t.word.getLsbD 12 = t.vOut0 ∧
    t.word.getLsbD 13 = t.vOut1 ∧ t.word.extractLsb' 14 18 = 0

/-- 10 R21 with its index column, R23 to R34, 60 R280, 20 R65, R69: a host read of register `k` returns what the register
holds, `CMD`, `STATUS`, `ERR` and `IN_LEN` while `BUSY` too, and has no side effect on the block. -/
def Obligations.RegisterReadsReturnTheirValue : Prop :=
  ∀ (s : State) (k : Nat) (rest : List Turn), k < 10 → s.script = .host (.readReg k) :: rest →
    (s.status.state = .busy → k < 4) →
    ∃ d v, step s = .next { s with script := rest, draws := d, readData := .word v } ∧
      (k = 0 → v = s.cmd) ∧ (k = 1 → v = s.status.word) ∧
      (k = 2 → v = (match s.err with
        | .none => 0 | .format => 1 | .invalidDimension => 2 | .truncatedData => 3 | .allocation => 4
        | .illegalCommand => 5 | .sourceInvalid => 6)) ∧
      (k = 3 → v = s.inLen) ∧ (k = 4 → v = s.width.setWidth 32) ∧ (k = 5 → v = s.height.setWidth 32) ∧
      (k = 6 → v = s.maxval.setWidth 32) ∧
      (k = 7 → v = (match s.variant with | .none => 0 | .text => 1 | .binary => 2)) ∧
      (k = 8 → v = s.out0Len) ∧ (k = 9 → v = s.out1Len)

/-- 10 R21: the bits of a register above its used width read as 0, in every state, `BUSY` or not; that the
free value of a read while `BUSY` is cut to that width is the model's (log entry 11). -/
def Obligations.UnusedRegisterBitsReadZero : Prop :=
  ∀ (s : State) (k : Nat) (rest : List Turn), k < 10 → s.script = .host (.readReg k) :: rest →
    ∃ t v, step s = .next t ∧ t.readData = .word v ∧
      v.toNat < 2 ^ ([32, 14, 3, 32, 31, 31, 8, 2, 32, 32].getD k 0)

/-- 10 R27: a write to `IN_LEN` while not `BUSY` stores `min(v, MAX_IN_BYTES)` and changes nothing else. -/
def Obligations.InLenWriteSaturates : Prop :=
  ∀ (s : State) (v : Word) (rest : List Turn), s.status.state ≠ .busy → s.script = .host (.writeReg 3 v) :: rest →
    ∃ n : Word, n.toNat = min v.toNat s.params.maxInBytes ∧
      step s = .next { s with script := rest, inLen := n }

/-- 20 R65, 10 R35: a byte the host writes to `IN` is what its next read there returns, and no other element changes. -/
def Obligations.InputByteReadsBack : Prop :=
  ∀ (s : State) (k : Nat) (v : Byte) (rest : List Turn), s.status.state ≠ .busy → k < s.params.maxInBytes →
    s.script = .host (.writeByte .inp k v) :: .host (.readByte .inp k) :: rest →
    ∃ t u, step s = .next t ∧ step t = .next u ∧ u.readData = .byte v ∧
      sameBytes (fun sp j => sp = .inp ∧ j = k) s u ∧ sameConvFrom 0 s u ∧ u.status = s.status ∧ sameHeader s u ∧
      sameLengths s u ∧ u.inLen = s.inLen ∧ u.cmd = s.cmd ∧ u.err = s.err ∧ u.params = s.params

/-- 20 R65, R66, 10 R36 to R39, R41: a host read inside the defined extent of a result buffer returns its element, of a
byte buffer or of `CONV`. -/
def Obligations.DefinedElementsReadBack : Prop :=
  ∀ (s : State) (k : Nat) (rest : List Turn), Inv s → s.status.state ≠ .busy →
    (∀ sp, s.script = .host (.readByte sp k) :: rest →
      ((sp = .frame1 ∧ s.status.vFrame1 = true ∧ k < s.sampleCount) ∨
        (sp = .filt ∧ s.status.vFilt = true ∧ k < s.sampleCount) ∨
        (sp = .grad ∧ s.status.vGrad = true ∧ k < s.sampleCount) ∨
        (sp = .out0 ∧ s.status.vOut0 = true ∧ k < s.out0Len.toNat) ∨
        (sp = .out1 ∧ s.status.vOut1 = true ∧ k < s.out1Len.toNat)) →
      ∃ b d, Cells.read (s.mem.bytes sp) k = some b ∧
        step s = .next { s with script := rest, draws := d, readData := .byte b }) ∧
    (s.script = .host (.readConv k) :: rest → s.status.vConv = true → k < s.sampleCount →
      ∃ v d, Cells.read s.mem.conv k = some v ∧
        step s = .next { s with script := rest, draws := d, readData := .word v })

/-- 20 R69, 70 R330: while `BUSY` every host write is dropped: nothing changes. -/
def Obligations.BusyDropsHostWrites : Prop :=
  ∀ (s : State) (a : HostAct) (rest : List Turn), s.status.state = .busy → a.isWrite = true →
    locationExists s.params a = true → s.script = .host a :: rest → step s = .next (onlyScript rest s)

/-- 10 R21, 20 R65: a host write to a read-only register or buffer is ignored. -/
def Obligations.ReadOnlyLocationsIgnoreWrites : Prop :=
  ∀ (s : State) (a : HostAct) (rest : List Turn), locationExists s.params a = true →
    ((∃ k v, a = .writeReg k v ∧ k ≠ 0 ∧ k ≠ 3) ∨ (∃ sp k v, a = .writeByte sp k v ∧ sp ≠ .inp) ∨
      (∃ k v, a = .writeConv k v)) →
    s.script = .host a :: rest → step s = .next (onlyScript rest s)

/-- 20 R66 "a model refuses it": an access to a location that does not exist is refused, and only such an access is;
that it is refused while `BUSY` too is DEDUCED (log entry 13). -/
def Obligations.OnlyMissingLocationsAreRefused : Prop :=
  ∀ s : State, (∃ r, step s = .refused r) ↔
    ∃ a rest, s.script = .host a :: rest ∧ locationExists s.params a = false

/-! ## Reset -/

/-- 10 R44, 70 R320: from every state, `BUSY` too, reset leaves the registers 0 and no buffer element holds a value. The
parameters stay; the host's own fields and the draw counter are the model's (log entry 15). -/
def Obligations.ResetFromEveryState : Prop :=
  ∀ (s : State) (rest : List Turn), s.script = .reset :: rest →
    ∃ t, step s = .next t ∧ t.cmd = 0 ∧ t.status.word = 0 ∧ t.status.state = .idle ∧ t.status.phase = .none ∧
      t.err = .none ∧ t.inLen = 0 ∧ runCleared t ∧ (∀ sp k, Cells.read (t.mem.bytes sp) k = none) ∧
      (∀ k, Cells.read t.mem.conv k = none) ∧ t.params = s.params ∧ t.script = rest

/-! ## Whole-machine rules -/

/-- 10 R45 at reset, for every instance and whatever the host is going to do; the sizes and tokens of `State.reset` are
the model's (log entries 5, 7). -/
def Obligations.ResetStateIsGood : Prop :=
  Inv State.reset ∧ ∀ (p : Params) (script : List Turn), paramsWf p → Inv { State.resetOf p with script := script }

/-- 10 R45: every step keeps the invariant. -/
def Obligations.EveryStepKeepsTheInvariant : Prop :=
  ∀ s t : State, Inv s → step s = .next t → Inv t

/-- The model's own faults (log entry 14) stand in no state that meets the invariant. -/
def Obligations.GoodStatesNeverFault : Prop :=
  ∀ (s : State) (f : Fault), Inv s → step s ≠ .fault f

/-- 70 R336, 45 R262: every accepted command ends, after at most five block steps, in `DONE` or `ERROR`; that
the block moves on an empty script is the model's form of fairness (log entries 2, 21). -/
def Obligations.EveryCommandEnds : Prop :=
  ∀ s : State, Inv s → s.status.state = .busy → s.script = [] →
    ∃ n t, n ≤ 5 ∧ Host.Core.run Sys2Proof.core n s = .next t ∧ (t.status.state = .done ∨ t.status.state = .error) ∧
      t.status.phase = .none

/-- 10 R24, R25, 45 R251 to R257, 60 R296: the only changes of `STATUS.STATE` and `STATUS.PHASE`. While `BUSY` they change
by the block's step only: to `ERROR` from `PH_DECODE`, to `DONE` after the last phase, or along `PROCESS` to its next
phase; while not `BUSY` by a host write to `CMD` only: `CLEAR`, the start of a legal command whose source is valid, or one of the two acceptance
errors. When the block moves is the model's script (log entries 1, 2, 23). -/
def Obligations.StateTransitionsAreTheListed : Prop :=
  ∀ s t : State, step s = .next t →
    (resets s → t.status.state = .idle ∧ t.status.phase = .none) ∧
    (blockMoves s →
      (t.status.state = .error ∧ t.status.phase = .none ∧ s.status.phase = .decode) ∨
      (t.status.state = .done ∧ t.status.phase = .none ∧
        ((∃ fmt, decode s.cmd = .ok (.process fmt)) → s.status.phase = .encode2)) ∨
      (t.status.state = .busy ∧ (∃ fmt, decode s.cmd = .ok (.process fmt)) ∧
        (s.status.phase, t.status.phase) ∈
          [(Phase.decode, Phase.blur), (.blur, .sobel), (.sobel, .encode), (.encode, .encode2)])) ∧
    (¬ resets s → s.status.state = .busy → ¬ blockMoves s →
      t.status.state = .busy ∧ t.status.phase = s.status.phase) ∧
    (¬ resets s → s.status.state ≠ .busy →
      t.status.state ≠ s.status.state ∨ t.status.phase ≠ s.status.phase →
      ∃ c, writesCommand s c ∧
        ((c = 0 ∧ t.status.state = .idle ∧ t.status.phase = .none) ∨
          (t.status.state = .busy ∧ ∃ i, decode c = .ok i ∧ i ≠ .clear ∧ t.status.phase = firstPhase (phasesOf i) ∧
            ∀ b, sourceOf i = some b → s.sourceValid b = true) ∨
          (t.status.state = .error ∧ t.status.phase = .none ∧
            ((∃ e, decode c = .error e) ∨
              ∃ i b, decode c = .ok i ∧ sourceOf i = some b ∧ s.sourceValid b = false))))

/-- 20 R60, R67, R71: each buffer is written by its own agent and phase only: `IN` at a host write to it, a result buffer
at the block's step in its phase, never at a host access. -/
def Obligations.EachBufferHasItsOwnWriter : Prop :=
  ∀ s t : State, step s = .next t → ¬ resets s →
    (t.mem.inp ≠ s.mem.inp → s.status.state ≠ .busy ∧ ∃ k v rest, s.script = .host (.writeByte .inp k v) :: rest) ∧
    (t.mem.frame1 ≠ s.mem.frame1 → performs s .decode) ∧ (t.mem.filt ≠ s.mem.filt → performs s .blur) ∧
    (t.mem.grad ≠ s.mem.grad → performs s .sobel) ∧ (t.mem.conv ≠ s.mem.conv → performs s .convolve) ∧
    (t.mem.out0 ≠ s.mem.out0 → performs s .encode) ∧
    (t.mem.out1 ≠ s.mem.out1 → performs s .encode ∨ performs s .encode2)

/-- 10 R26: what sets and what clears each valid bit. -/
def Obligations.ValidBitsChangeOnlyAsListed : Prop :=
  ∀ s t : State, step s = .next t → ¬ resets s →
    (t.status.vFrame1 = true → s.status.vFrame1 = true ∨ performs s .decode) ∧
    (t.status.vFilt = true → s.status.vFilt = true ∨ performs s .blur) ∧
    (t.status.vGrad = true → s.status.vGrad = true ∨ performs s .sobel) ∧
    (t.status.vConv = true → s.status.vConv = true ∨ performs s .convolve) ∧
    (t.status.vOut0 = true → s.status.vOut0 = true ∨ performs s .encode) ∧
    (t.status.vOut1 = true → s.status.vOut1 = true ∨ performs s .encode ∨ performs s .encode2) ∧
    (¬ performs s .decode → ¬ writesCommand s 0 →
      (s.status.vFrame1 = true → t.status.vFrame1 = true) ∧ (s.status.vFilt = true → t.status.vFilt = true) ∧
      (s.status.vGrad = true → t.status.vGrad = true) ∧ (s.status.vConv = true → t.status.vConv = true) ∧
      (s.status.vOut0 = true → t.status.vOut0 = true) ∧ (s.status.vOut1 = true → t.status.vOut1 = true))

/-- 10 R22, R27, R29 to R34: who writes each register. -/
def Obligations.RegistersChangeOnlyAsListed : Prop :=
  ∀ s t : State, step s = .next t → ¬ resets s →
    t.params = s.params ∧ (t.cmd ≠ s.cmd → writesCommand s t.cmd) ∧
    (t.inLen ≠ s.inLen → s.status.state ≠ .busy ∧ ∃ v rest, s.script = .host (.writeReg 3 v) :: rest) ∧
    (¬ sameHeader s t → performs s .decode ∨ writesCommand s 0) ∧
    (t.out0Len ≠ s.out0Len → performs s .decode ∨ performs s .encode ∨ writesCommand s 0) ∧
    (t.out1Len ≠ s.out1Len →
      performs s .decode ∨ performs s .encode ∨ performs s .encode2 ∨ writesCommand s 0) ∧
    (t.err ≠ s.err → performs s .decode ∨ ∃ c, writesCommand s c)

/-! ## Reads -/

/-- 20 R65 "Reads never have side effects, in any space": a host read of any location that exists, `BUSY` or not, inside
the defined extent or outside it, changes only the host's own read data, the script and the model's draw counter (log
entries 1, 9, 18). -/
def Obligations.HostReadsHaveNoSideEffect : Prop :=
  ∀ (s : State) (a : HostAct) (rest : List Turn), a.isWrite = false → locationExists s.params a = true →
    s.script = .host a :: rest →
    ∃ d r, step s = .next { s with script := rest, draws := d, readData := r } ∧ r ≠ .empty
end

