-- ==== Sys2Proof/Laws/Cells.lean ====
section
/-! SUPPORT. Reading and writing the buffers, and their canonical form. -/

namespace Sys2Proof.Machine

variable {w : Nat}

/-! ### One buffer: reads -/

@[simp] theorem Cells.read_nil (i : Nat) : Cells.read ([] : Cells w) i = none := rfl

theorem Cells.read_cons (a : Nat) (v : BitVec w) (m : Cells w) (i : Nat) :
    Cells.read ((a, v) :: m) i = if a = i then some v else Cells.read m i := rfl

theorem Cells.read_append (m n : Cells w) (i : Nat) :
    Cells.read (m ++ n) i = (Cells.read m i).or (Cells.read n i) := by
  induction m with
  | nil => simp
  | cons c m ih =>
    obtain ⟨a, v⟩ := c
    simp only [List.cons_append, Cells.read_cons, ih]
    split <;> simp

/-- Read after write: the element written reads as the value, every other as before. -/
theorem Cells.read_write (m : Cells w) (k i : Nat) (v : BitVec w) :
    Cells.read (Cells.write m k v) i = if k = i then some v else Cells.read m i := by
  induction m with
  | nil => simp [Cells.write, Cells.read_cons]
  | cons c m ih =>
    obtain ⟨a, x⟩ := c
    simp only [Cells.write]
    split
    · simp [Cells.read_cons]
    · split
      · subst k
        by_cases h : a = i <;> simp [Cells.read_cons, h]
      · simp only [Cells.read_cons, ih]
        by_cases h : a = i
        · have : k ≠ i := by omega
          simp [h, this]
        · simp [h]

theorem Cells.read_ofListFrom (vs : List (BitVec w)) (k i : Nat) :
    Cells.read (Cells.ofListFrom k vs) i = if k ≤ i then vs[i - k]? else none := by
  induction vs generalizing k with
  | nil => simp [Cells.ofListFrom]
  | cons v vs ih =>
    simp only [Cells.ofListFrom, Cells.read_cons, ih]
    rcases Nat.lt_trichotomy i k with h | h | h
    · have h1 : ¬ k = i := by omega
      have h2 : ¬ k ≤ i := by omega
      have h3 : ¬ k + 1 ≤ i := by omega
      simp [h1, h2, h3]
    · simp [h]
    · have h1 : ¬ k = i := by omega
      have h2 : k ≤ i := by omega
      have h3 : k + 1 ≤ i := by omega
      have h4 : i - k = (i - (k + 1)) + 1 := by omega
      simp [h1, h2, h3, h4]

/-- A buffer made of a list reads as the list. -/
@[simp] theorem Cells.read_ofList (vs : List (BitVec w)) (i : Nat) : Cells.read (Cells.ofList vs) i = vs[i]? := by
  simp [Cells.ofList, Cells.read_ofListFrom]

theorem Cells.read_filter (m : Cells w) (n i : Nat) (h : n ≤ i) :
    Cells.read (m.filter fun c => decide (n ≤ c.1)) i = Cells.read m i := by
  induction m with
  | nil => simp
  | cons c m ih =>
    obtain ⟨a, v⟩ := c
    by_cases ha : n ≤ a
    · rw [List.filter_cons_of_pos (by simpa using ha)]
      simp [Cells.read_cons, ih]
    · have : ¬ a = i := by omega
      rw [List.filter_cons_of_neg (by simpa using ha)]
      simp [Cells.read_cons, ih, this]

/-- The elements stored by an overlay. -/
theorem Cells.read_overlay_lt (vs : List (BitVec w)) (m : Cells w) (i : Nat) (h : i < vs.length) :
    Cells.read (Cells.overlay vs m) i = vs[i]? := by
  simp [Cells.overlay, Cells.read_append, h]

/-- An overlay leaves every element from its length on. -/
theorem Cells.read_overlay_ge (vs : List (BitVec w)) (m : Cells w) (i : Nat) (h : vs.length ≤ i) :
    Cells.read (Cells.overlay vs m) i = Cells.read m i := by
  simp [Cells.overlay, Cells.read_append, Cells.read_filter, h]

/-! ### One buffer: the canonical form -/

theorem Cells.rising_mono (m : Cells w) (lo lo' : Nat) (h : lo' ≤ lo) (hm : Cells.rising lo m = true) :
    Cells.rising lo' m = true := by
  cases m with
  | nil => rfl
  | cons c m =>
    obtain ⟨a, v⟩ := c
    simp only [Cells.rising, Bool.and_eq_true, decide_eq_true_eq] at hm ⊢
    exact ⟨by omega, hm.2⟩

theorem Cells.rising_write (m : Cells w) (lo k : Nat) (v : BitVec w) (hk : lo ≤ k) (hm : Cells.rising lo m = true) :
    Cells.rising lo (Cells.write m k v) = true := by
  induction m generalizing lo with
  | nil => simp [Cells.write, Cells.rising, hk]
  | cons c m ih =>
    obtain ⟨a, x⟩ := c
    simp only [Cells.rising, Bool.and_eq_true, decide_eq_true_eq] at hm
    simp only [Cells.write]
    split
    · simp only [Cells.rising, Bool.and_eq_true, decide_eq_true_eq]
      exact ⟨hk, by omega, hm.2⟩
    · split
      · subst k
        simp only [Cells.rising, Bool.and_eq_true, decide_eq_true_eq]
        exact hm
      · simp only [Cells.rising, Bool.and_eq_true, decide_eq_true_eq]
        exact ⟨hm.1, ih (a + 1) (by omega) hm.2⟩

/-- A write keeps the canonical form. -/
theorem Cells.wf_write (m : Cells w) (k : Nat) (v : BitVec w) (hm : Cells.wf m = true) :
    Cells.wf (Cells.write m k v) = true :=
  Cells.rising_write m 0 k v (Nat.zero_le k) hm

theorem Cells.rising_filter (m : Cells w) (lo n : Nat) (hm : Cells.rising lo m = true) :
    Cells.rising (max lo n) (m.filter fun c => decide (n ≤ c.1)) = true := by
  induction m generalizing lo with
  | nil => rfl
  | cons c m ih =>
    obtain ⟨a, x⟩ := c
    simp only [Cells.rising, Bool.and_eq_true, decide_eq_true_eq] at hm
    have hm2 := ih (a + 1) hm.2
    by_cases ha : n ≤ a
    · rw [List.filter_cons_of_pos (by simpa using ha)]
      simp only [Cells.rising, Bool.and_eq_true, decide_eq_true_eq]
      exact ⟨by omega, Cells.rising_mono _ _ _ (by omega) hm2⟩
    · rw [List.filter_cons_of_neg (by simpa using ha)]
      exact Cells.rising_mono _ _ _ (by omega) hm2

theorem Cells.rising_ofListFrom_append (vs : List (BitVec w)) (k : Nat) (m : Cells w)
    (hm : Cells.rising (k + vs.length) m = true) : Cells.rising k (Cells.ofListFrom k vs ++ m) = true := by
  induction vs generalizing k with
  | nil => simpa [Cells.ofListFrom] using hm
  | cons v vs ih =>
    simp only [Cells.ofListFrom, List.cons_append, Cells.rising, Bool.and_eq_true, decide_eq_true_eq]
    refine ⟨Nat.le_refl k, ih (k + 1) ?_⟩
    have : k + 1 + vs.length = k + (v :: vs).length := by simp only [List.length_cons]; omega
    rw [this]
    exact hm

/-- An overlay keeps the canonical form. -/
theorem Cells.wf_overlay (vs : List (BitVec w)) (m : Cells w) (hm : Cells.wf m = true) :
    Cells.wf (Cells.overlay vs m) = true := by
  refine Cells.rising_ofListFrom_append vs 0 _ ?_
  have := Cells.rising_filter m 0 vs.length hm
  simpa using this

/-- A buffer made of a list is in canonical form. -/
theorem Cells.wf_ofList (vs : List (BitVec w)) : Cells.wf (Cells.ofList vs) = true := by
  have := Cells.rising_ofListFrom_append vs 0 ([] : Cells w) rfl
  rwa [List.append_nil] at this

/-! ### One buffer: the capacity -/

theorem Cells.below_write (m : Cells w) (n k : Nat) (v : BitVec w) (hk : k < n) (hm : Cells.below n m = true) :
    Cells.below n (Cells.write m k v) = true := by
  induction m with
  | nil => simp [Cells.write, Cells.below, hk]
  | cons c m ih =>
    obtain ⟨a, x⟩ := c
    simp only [Cells.below, List.all_cons, Bool.and_eq_true, decide_eq_true_eq] at hm ih
    simp only [Cells.write]
    split
    · simp [Cells.below, hk, hm.1, hm.2]
    · split
      · simp [Cells.below, hk, hm.2]
      · simp only [Cells.below, List.all_cons, Bool.and_eq_true, decide_eq_true_eq]
        exact ⟨hm.1, ih hm.2⟩

theorem Cells.below_ofListFrom (vs : List (BitVec w)) (n k : Nat) (h : k + vs.length ≤ n) :
    Cells.below n (Cells.ofListFrom k vs) = true := by
  induction vs generalizing k with
  | nil => rfl
  | cons v vs ih =>
    simp only [List.length_cons] at h
    simp only [Cells.ofListFrom, Cells.below, List.all_cons, Bool.and_eq_true, decide_eq_true_eq]
    exact ⟨by omega, ih (k + 1) (by omega)⟩

theorem Cells.below_ofList (vs : List (BitVec w)) (n : Nat) (h : vs.length ≤ n) :
    Cells.below n (Cells.ofList vs) = true :=
  Cells.below_ofListFrom vs n 0 (by omega)

theorem Cells.below_overlay (vs : List (BitVec w)) (m : Cells w) (n : Nat) (h : vs.length ≤ n)
    (hm : Cells.below n m = true) : Cells.below n (Cells.overlay vs m) = true := by
  have h1 := Cells.below_ofList vs n h
  simp only [Cells.below, List.all_eq_true, decide_eq_true_eq, Cells.overlay, List.mem_append, List.mem_filter] at *
  rintro c (hc | hc)
  · exact h1 c hc
  · exact hm c hc.1

/-! ### The seven buffers -/

@[simp] theorem Memory.bytes_setBytes (m : Memory) (sp sp' : ByteSpace) (c : Cells 8) :
    (m.setBytes sp c).bytes sp' = if sp' = sp then c else m.bytes sp' := by
  cases sp <;> cases sp' <;> rfl

@[simp] theorem Memory.conv_setBytes (m : Memory) (sp : ByteSpace) (c : Cells 8) : (m.setBytes sp c).conv = m.conv := by
  cases sp <;> rfl

@[simp] theorem Memory.bytes_setConv (m : Memory) (sp : ByteSpace) (c : Cells 32) :
    ({ m with conv := c } : Memory).bytes sp = m.bytes sp := by
  cases sp <;> rfl

/-- The canonical form, buffer by buffer. -/
theorem Memory.wf_iff (m : Memory) :
    m.wf = true ↔ (∀ sp, Cells.wf (m.bytes sp) = true) ∧ Cells.wf m.conv = true := by
  simp only [Memory.wf, Bool.and_eq_true]
  constructor
  · rintro ⟨⟨⟨⟨⟨⟨h1, h2⟩, h3⟩, h4⟩, h5⟩, h6⟩, h7⟩
    refine ⟨fun sp => ?_, h5⟩
    cases sp <;> assumption
  · rintro ⟨h, h5⟩
    exact ⟨⟨⟨⟨⟨⟨h .inp, h .frame1⟩, h .filt⟩, h .grad⟩, h5⟩, h .out0⟩, h .out1⟩

/-- The capacities, buffer by buffer. -/
theorem Memory.within_iff (p : Params) (m : Memory) :
    m.within p = true ↔ (∀ sp, Cells.below (capacity p sp) (m.bytes sp) = true) ∧ Cells.below p.maxPixels m.conv = true := by
  simp only [Memory.within, Bool.and_eq_true]
  constructor
  · rintro ⟨⟨⟨⟨⟨⟨h1, h2⟩, h3⟩, h4⟩, h5⟩, h6⟩, h7⟩
    refine ⟨fun sp => ?_, h5⟩
    cases sp <;> assumption
  · rintro ⟨h, h5⟩
    exact ⟨⟨⟨⟨⟨⟨h .inp, h .frame1⟩, h .filt⟩, h .grad⟩, h5⟩, h .out0⟩, h .out1⟩

/-- Replacing a byte buffer by one in canonical form keeps the form. -/
theorem Memory.wf_setBytes (m : Memory) (sp : ByteSpace) (c : Cells 8) (hm : m.wf = true) (hc : Cells.wf c = true) :
    (m.setBytes sp c).wf = true := by
  rw [Memory.wf_iff] at hm ⊢
  refine ⟨fun sp' => ?_, by simpa using hm.2⟩
  rw [Memory.bytes_setBytes]
  split
  · exact hc
  · exact hm.1 sp'

theorem Memory.wf_setConv (m : Memory) (c : Cells 32) (hm : m.wf = true) (hc : Cells.wf c = true) :
    ({ m with conv := c } : Memory).wf = true := by
  rw [Memory.wf_iff] at hm ⊢
  exact ⟨fun sp => by simpa using hm.1 sp, hc⟩

/-- A phase's store keeps the canonical form. -/
theorem State.storeBytes_wf (s : State) (sp : ByteSpace) (vs : List Byte) (hm : s.mem.wf = true) :
    (s.storeBytes sp vs).mem.wf = true :=
  Memory.wf_setBytes _ _ _ hm (Cells.wf_overlay _ _ (((Memory.wf_iff _).1 hm).1 sp))

theorem State.storeConv_wf (s : State) (vs : List Word) (hm : s.mem.wf = true) : (s.storeConv vs).mem.wf = true :=
  Memory.wf_setConv _ _ hm (Cells.wf_overlay _ _ ((Memory.wf_iff _).1 hm).2)

theorem State.replaceBytes_wf (s : State) (sp : ByteSpace) (vs : List Byte) (hm : s.mem.wf = true) :
    (s.replaceBytes sp vs).mem.wf = true :=
  Memory.wf_setBytes _ _ _ hm (Cells.wf_ofList _)

/-- The host's write to `IN` keeps the canonical form. -/
theorem Memory.wf_writeInp (m : Memory) (k : Nat) (v : Byte) (hm : m.wf = true) :
    ({ m with inp := Cells.write m.inp k v } : Memory).wf = true :=
  Memory.wf_setBytes m .inp _ hm (Cells.wf_write _ _ _ (((Memory.wf_iff m).1 hm).1 .inp))

/-- Memory after reset is in canonical form. -/
theorem Memory.wf_unspecified : Memory.unspecified.wf = true := rfl

theorem State.reset_mem_wf : State.reset.mem.wf = true := rfl

end Sys2Proof.Machine
end

