-- ==== Sys2Proof/Laws/Images.lean ====
section
/-! SUPPORT. Row-major images and the streams of an image. -/

namespace Sys2Proof.Machine

variable {α : Type}

theorem rowMajor_succ (w h : Nat) (f : Nat → Nat → α) :
    rowMajor w (h + 1) f = rowMajor w h f ++ (List.range w).map fun col => f h col := by
  simp [rowMajor, List.range_succ]

/-- An image has `w * h` elements. -/
@[simp] theorem rowMajor_length (w h : Nat) (f : Nat → Nat → α) : (rowMajor w h f).length = w * h := by
  induction h with
  | zero => simp [rowMajor]
  | succ h ih =>
    rw [rowMajor_succ]
    simp [ih, Nat.mul_succ]

/-- The element of `(row, col)` stands at index `row * w + col` (spec/00_scope.md R15). -/
theorem rowMajor_getElem? (w h : Nat) (f : Nat → Nat → α) (row col : Nat) (hr : row < h) (hc : col < w) :
    (rowMajor w h f)[row * w + col]? = some (f row col) := by
  induction h with
  | zero => omega
  | succ h ih =>
    rw [rowMajor_succ]
    by_cases hrh : row < h
    · have hlt : row * w + col < w * h := by
        calc row * w + col < row * w + w := by omega
          _ = (row + 1) * w := by ring
          _ ≤ h * w := Nat.mul_le_mul_right w (by omega)
          _ = w * h := Nat.mul_comm h w
      rw [List.getElem?_append_left (by simpa using hlt)]
      exact ih hrh
    · have hrow : row = h := by omega
      subst hrow
      rw [List.getElem?_append_right (by simp [Nat.mul_comm])]
      simp [Nat.mul_comm, hc]

/-- Every index below `w * h` is that of one position. -/
theorem index_position (w h k : Nat) (hk : k < w * h) : k / w < h ∧ k % w < w ∧ k / w * w + k % w = k := by
  have hw : 0 < w := by
    rcases Nat.eq_zero_or_pos w with rfl | hw
    · simp at hk
    · exact hw
  refine ⟨?_, Nat.mod_lt k hw, Nat.div_add_mod' k w⟩
  exact Nat.div_lt_of_lt_mul hk

/-- The sizes of what the stages store. -/
@[simp] theorem convImage_length (img : Nat → Byte) (w h : Nat) (k : KIdx) : (convImage img w h k).length = w * h := by
  simp [convImage]

@[simp] theorem blurImage_length (img : Nat → Byte) (w h : Nat) : (blurImage img w h).length = w * h := by
  simp [blurImage]

@[simp] theorem sobelImage_length (img : Nat → Byte) (w h : Nat) : (sobelImage img w h).length = w * h := by
  simp [sobelImage]

@[simp] theorem State.stream_length (s : State) : s.stream.length = s.inLen.toNat := by
  simp [State.stream]

end Sys2Proof.Machine
end

