-- ==== Sys2Proof/Laws/State.lean ====
section
/-! SUPPORT. What each update of the state leaves in each field, one lemma per field and update. -/

namespace Sys2Proof.Machine

/-! ### `State.tick` -/

@[simp] theorem State.tick_params (s : State) :
    (s.tick).params = s.params := rfl
@[simp] theorem State.tick_cmd (s : State) :
    (s.tick).cmd = s.cmd := rfl
@[simp] theorem State.tick_err (s : State) :
    (s.tick).err = s.err := rfl
@[simp] theorem State.tick_inLen (s : State) :
    (s.tick).inLen = s.inLen := rfl
@[simp] theorem State.tick_width (s : State) :
    (s.tick).width = s.width := rfl
@[simp] theorem State.tick_height (s : State) :
    (s.tick).height = s.height := rfl
@[simp] theorem State.tick_maxval (s : State) :
    (s.tick).maxval = s.maxval := rfl
@[simp] theorem State.tick_variant (s : State) :
    (s.tick).variant = s.variant := rfl
@[simp] theorem State.tick_out0Len (s : State) :
    (s.tick).out0Len = s.out0Len := rfl
@[simp] theorem State.tick_out1Len (s : State) :
    (s.tick).out1Len = s.out1Len := rfl
@[simp] theorem State.tick_mem (s : State) :
    (s.tick).mem = s.mem := rfl
@[simp] theorem State.tick_script (s : State) :
    (s.tick).script = s.script := rfl
@[simp] theorem State.tick_readData (s : State) :
    (s.tick).readData = s.readData := rfl
@[simp] theorem State.tick_draws (s : State) :
    (s.tick).draws = s.draws + 1 := rfl
@[simp] theorem State.tick_state (s : State) :
    (s.tick).status.state = s.status.state := rfl
@[simp] theorem State.tick_phase (s : State) :
    (s.tick).status.phase = s.status.phase := rfl
@[simp] theorem State.tick_vFrame1 (s : State) :
    (s.tick).status.vFrame1 = s.status.vFrame1 := rfl
@[simp] theorem State.tick_vFilt (s : State) :
    (s.tick).status.vFilt = s.status.vFilt := rfl
@[simp] theorem State.tick_vGrad (s : State) :
    (s.tick).status.vGrad = s.status.vGrad := rfl
@[simp] theorem State.tick_vConv (s : State) :
    (s.tick).status.vConv = s.status.vConv := rfl
@[simp] theorem State.tick_vOut0 (s : State) :
    (s.tick).status.vOut0 = s.status.vOut0 := rfl
@[simp] theorem State.tick_vOut1 (s : State) :
    (s.tick).status.vOut1 = s.status.vOut1 := rfl

/-! ### `State.raise` -/

@[simp] theorem State.raise_params (s : State) (e : ErrCode) :
    (s.raise e).params = s.params := rfl
@[simp] theorem State.raise_cmd (s : State) (e : ErrCode) :
    (s.raise e).cmd = s.cmd := rfl
@[simp] theorem State.raise_err (s : State) (e : ErrCode) :
    (s.raise e).err = e := rfl
@[simp] theorem State.raise_inLen (s : State) (e : ErrCode) :
    (s.raise e).inLen = s.inLen := rfl
@[simp] theorem State.raise_width (s : State) (e : ErrCode) :
    (s.raise e).width = s.width := rfl
@[simp] theorem State.raise_height (s : State) (e : ErrCode) :
    (s.raise e).height = s.height := rfl
@[simp] theorem State.raise_maxval (s : State) (e : ErrCode) :
    (s.raise e).maxval = s.maxval := rfl
@[simp] theorem State.raise_variant (s : State) (e : ErrCode) :
    (s.raise e).variant = s.variant := rfl
@[simp] theorem State.raise_out0Len (s : State) (e : ErrCode) :
    (s.raise e).out0Len = s.out0Len := rfl
@[simp] theorem State.raise_out1Len (s : State) (e : ErrCode) :
    (s.raise e).out1Len = s.out1Len := rfl
@[simp] theorem State.raise_mem (s : State) (e : ErrCode) :
    (s.raise e).mem = s.mem := rfl
@[simp] theorem State.raise_script (s : State) (e : ErrCode) :
    (s.raise e).script = s.script := rfl
@[simp] theorem State.raise_readData (s : State) (e : ErrCode) :
    (s.raise e).readData = s.readData := rfl
@[simp] theorem State.raise_draws (s : State) (e : ErrCode) :
    (s.raise e).draws = s.draws := rfl
@[simp] theorem State.raise_state (s : State) (e : ErrCode) :
    (s.raise e).status.state = .error := rfl
@[simp] theorem State.raise_phase (s : State) (e : ErrCode) :
    (s.raise e).status.phase = .none := rfl
@[simp] theorem State.raise_vFrame1 (s : State) (e : ErrCode) :
    (s.raise e).status.vFrame1 = s.status.vFrame1 := rfl
@[simp] theorem State.raise_vFilt (s : State) (e : ErrCode) :
    (s.raise e).status.vFilt = s.status.vFilt := rfl
@[simp] theorem State.raise_vGrad (s : State) (e : ErrCode) :
    (s.raise e).status.vGrad = s.status.vGrad := rfl
@[simp] theorem State.raise_vConv (s : State) (e : ErrCode) :
    (s.raise e).status.vConv = s.status.vConv := rfl
@[simp] theorem State.raise_vOut0 (s : State) (e : ErrCode) :
    (s.raise e).status.vOut0 = s.status.vOut0 := rfl
@[simp] theorem State.raise_vOut1 (s : State) (e : ErrCode) :
    (s.raise e).status.vOut1 = s.status.vOut1 := rfl

/-! ### `State.start` -/

@[simp] theorem State.start_params (s : State) (p : Phase) :
    (s.start p).params = s.params := rfl
@[simp] theorem State.start_cmd (s : State) (p : Phase) :
    (s.start p).cmd = s.cmd := rfl
@[simp] theorem State.start_err (s : State) (p : Phase) :
    (s.start p).err = .none := rfl
@[simp] theorem State.start_inLen (s : State) (p : Phase) :
    (s.start p).inLen = s.inLen := rfl
@[simp] theorem State.start_width (s : State) (p : Phase) :
    (s.start p).width = s.width := rfl
@[simp] theorem State.start_height (s : State) (p : Phase) :
    (s.start p).height = s.height := rfl
@[simp] theorem State.start_maxval (s : State) (p : Phase) :
    (s.start p).maxval = s.maxval := rfl
@[simp] theorem State.start_variant (s : State) (p : Phase) :
    (s.start p).variant = s.variant := rfl
@[simp] theorem State.start_out0Len (s : State) (p : Phase) :
    (s.start p).out0Len = s.out0Len := rfl
@[simp] theorem State.start_out1Len (s : State) (p : Phase) :
    (s.start p).out1Len = s.out1Len := rfl
@[simp] theorem State.start_mem (s : State) (p : Phase) :
    (s.start p).mem = s.mem := rfl
@[simp] theorem State.start_script (s : State) (p : Phase) :
    (s.start p).script = s.script := rfl
@[simp] theorem State.start_readData (s : State) (p : Phase) :
    (s.start p).readData = s.readData := rfl
@[simp] theorem State.start_draws (s : State) (p : Phase) :
    (s.start p).draws = s.draws := rfl
@[simp] theorem State.start_state (s : State) (p : Phase) :
    (s.start p).status.state = .busy := rfl
@[simp] theorem State.start_phase (s : State) (p : Phase) :
    (s.start p).status.phase = p := rfl
@[simp] theorem State.start_vFrame1 (s : State) (p : Phase) :
    (s.start p).status.vFrame1 = s.status.vFrame1 := rfl
@[simp] theorem State.start_vFilt (s : State) (p : Phase) :
    (s.start p).status.vFilt = s.status.vFilt := rfl
@[simp] theorem State.start_vGrad (s : State) (p : Phase) :
    (s.start p).status.vGrad = s.status.vGrad := rfl
@[simp] theorem State.start_vConv (s : State) (p : Phase) :
    (s.start p).status.vConv = s.status.vConv := rfl
@[simp] theorem State.start_vOut0 (s : State) (p : Phase) :
    (s.start p).status.vOut0 = s.status.vOut0 := rfl
@[simp] theorem State.start_vOut1 (s : State) (p : Phase) :
    (s.start p).status.vOut1 = s.status.vOut1 := rfl

/-! ### `State.finish` -/

@[simp] theorem State.finish_params (s : State) (p : Phase) :
    (s.finish p).params = s.params := by
  unfold State.finish
  split <;> rfl
@[simp] theorem State.finish_cmd (s : State) (p : Phase) :
    (s.finish p).cmd = s.cmd := by
  unfold State.finish
  split <;> rfl
@[simp] theorem State.finish_err (s : State) (p : Phase) :
    (s.finish p).err = s.err := by
  unfold State.finish
  split <;> rfl
@[simp] theorem State.finish_inLen (s : State) (p : Phase) :
    (s.finish p).inLen = s.inLen := by
  unfold State.finish
  split <;> rfl
@[simp] theorem State.finish_width (s : State) (p : Phase) :
    (s.finish p).width = s.width := by
  unfold State.finish
  split <;> rfl
@[simp] theorem State.finish_height (s : State) (p : Phase) :
    (s.finish p).height = s.height := by
  unfold State.finish
  split <;> rfl
@[simp] theorem State.finish_maxval (s : State) (p : Phase) :
    (s.finish p).maxval = s.maxval := by
  unfold State.finish
  split <;> rfl
@[simp] theorem State.finish_variant (s : State) (p : Phase) :
    (s.finish p).variant = s.variant := by
  unfold State.finish
  split <;> rfl
@[simp] theorem State.finish_out0Len (s : State) (p : Phase) :
    (s.finish p).out0Len = s.out0Len := by
  unfold State.finish
  split <;> rfl
@[simp] theorem State.finish_out1Len (s : State) (p : Phase) :
    (s.finish p).out1Len = s.out1Len := by
  unfold State.finish
  split <;> rfl
@[simp] theorem State.finish_mem (s : State) (p : Phase) :
    (s.finish p).mem = s.mem := by
  unfold State.finish
  split <;> rfl
@[simp] theorem State.finish_script (s : State) (p : Phase) :
    (s.finish p).script = s.script := by
  unfold State.finish
  split <;> rfl
@[simp] theorem State.finish_readData (s : State) (p : Phase) :
    (s.finish p).readData = s.readData := by
  unfold State.finish
  split <;> rfl
@[simp] theorem State.finish_draws (s : State) (p : Phase) :
    (s.finish p).draws = s.draws := by
  unfold State.finish
  split <;> rfl
@[simp] theorem State.finish_state (s : State) (p : Phase) :
    (s.finish p).status.state = if p = .none then .done else s.status.state := by
  unfold State.finish
  split <;> simp_all
@[simp] theorem State.finish_phase (s : State) (p : Phase) :
    (s.finish p).status.phase = p := by
  unfold State.finish
  split <;> simp_all
@[simp] theorem State.finish_vFrame1 (s : State) (p : Phase) :
    (s.finish p).status.vFrame1 = s.status.vFrame1 := by
  unfold State.finish
  split <;> rfl
@[simp] theorem State.finish_vFilt (s : State) (p : Phase) :
    (s.finish p).status.vFilt = s.status.vFilt := by
  unfold State.finish
  split <;> rfl
@[simp] theorem State.finish_vGrad (s : State) (p : Phase) :
    (s.finish p).status.vGrad = s.status.vGrad := by
  unfold State.finish
  split <;> rfl
@[simp] theorem State.finish_vConv (s : State) (p : Phase) :
    (s.finish p).status.vConv = s.status.vConv := by
  unfold State.finish
  split <;> rfl
@[simp] theorem State.finish_vOut0 (s : State) (p : Phase) :
    (s.finish p).status.vOut0 = s.status.vOut0 := by
  unfold State.finish
  split <;> rfl
@[simp] theorem State.finish_vOut1 (s : State) (p : Phase) :
    (s.finish p).status.vOut1 = s.status.vOut1 := by
  unfold State.finish
  split <;> rfl

/-! ### `State.clearRun` -/

@[simp] theorem State.clearRun_params (s : State) :
    (s.clearRun).params = s.params := rfl
@[simp] theorem State.clearRun_cmd (s : State) :
    (s.clearRun).cmd = s.cmd := rfl
@[simp] theorem State.clearRun_err (s : State) :
    (s.clearRun).err = s.err := rfl
@[simp] theorem State.clearRun_inLen (s : State) :
    (s.clearRun).inLen = s.inLen := rfl
@[simp] theorem State.clearRun_width (s : State) :
    (s.clearRun).width = 0#31 := rfl
@[simp] theorem State.clearRun_height (s : State) :
    (s.clearRun).height = 0#31 := rfl
@[simp] theorem State.clearRun_maxval (s : State) :
    (s.clearRun).maxval = 0#8 := rfl
@[simp] theorem State.clearRun_variant (s : State) :
    (s.clearRun).variant = .none := rfl
@[simp] theorem State.clearRun_out0Len (s : State) :
    (s.clearRun).out0Len = 0#32 := rfl
@[simp] theorem State.clearRun_out1Len (s : State) :
    (s.clearRun).out1Len = 0#32 := rfl
@[simp] theorem State.clearRun_mem (s : State) :
    (s.clearRun).mem = s.mem := rfl
@[simp] theorem State.clearRun_script (s : State) :
    (s.clearRun).script = s.script := rfl
@[simp] theorem State.clearRun_readData (s : State) :
    (s.clearRun).readData = s.readData := rfl
@[simp] theorem State.clearRun_draws (s : State) :
    (s.clearRun).draws = s.draws := rfl
@[simp] theorem State.clearRun_state (s : State) :
    (s.clearRun).status.state = s.status.state := rfl
@[simp] theorem State.clearRun_phase (s : State) :
    (s.clearRun).status.phase = s.status.phase := rfl
@[simp] theorem State.clearRun_vFrame1 (s : State) :
    (s.clearRun).status.vFrame1 = false := rfl
@[simp] theorem State.clearRun_vFilt (s : State) :
    (s.clearRun).status.vFilt = false := rfl
@[simp] theorem State.clearRun_vGrad (s : State) :
    (s.clearRun).status.vGrad = false := rfl
@[simp] theorem State.clearRun_vConv (s : State) :
    (s.clearRun).status.vConv = false := rfl
@[simp] theorem State.clearRun_vOut0 (s : State) :
    (s.clearRun).status.vOut0 = false := rfl
@[simp] theorem State.clearRun_vOut1 (s : State) :
    (s.clearRun).status.vOut1 = false := rfl

/-! ### `State.release` -/

@[simp] theorem State.release_params (s : State) :
    (s.release).params = s.params := rfl
@[simp] theorem State.release_cmd (s : State) :
    (s.release).cmd = s.cmd := rfl
@[simp] theorem State.release_err (s : State) :
    (s.release).err = .none := rfl
@[simp] theorem State.release_inLen (s : State) :
    (s.release).inLen = s.inLen := rfl
@[simp] theorem State.release_width (s : State) :
    (s.release).width = 0#31 := rfl
@[simp] theorem State.release_height (s : State) :
    (s.release).height = 0#31 := rfl
@[simp] theorem State.release_maxval (s : State) :
    (s.release).maxval = 0#8 := rfl
@[simp] theorem State.release_variant (s : State) :
    (s.release).variant = .none := rfl
@[simp] theorem State.release_out0Len (s : State) :
    (s.release).out0Len = 0#32 := rfl
@[simp] theorem State.release_out1Len (s : State) :
    (s.release).out1Len = 0#32 := rfl
@[simp] theorem State.release_mem (s : State) :
    (s.release).mem = s.mem := rfl
@[simp] theorem State.release_script (s : State) :
    (s.release).script = s.script := rfl
@[simp] theorem State.release_readData (s : State) :
    (s.release).readData = s.readData := rfl
@[simp] theorem State.release_draws (s : State) :
    (s.release).draws = s.draws := rfl
@[simp] theorem State.release_state (s : State) :
    (s.release).status.state = .idle := rfl
@[simp] theorem State.release_phase (s : State) :
    (s.release).status.phase = .none := rfl
@[simp] theorem State.release_vFrame1 (s : State) :
    (s.release).status.vFrame1 = false := rfl
@[simp] theorem State.release_vFilt (s : State) :
    (s.release).status.vFilt = false := rfl
@[simp] theorem State.release_vGrad (s : State) :
    (s.release).status.vGrad = false := rfl
@[simp] theorem State.release_vConv (s : State) :
    (s.release).status.vConv = false := rfl
@[simp] theorem State.release_vOut0 (s : State) :
    (s.release).status.vOut0 = false := rfl
@[simp] theorem State.release_vOut1 (s : State) :
    (s.release).status.vOut1 = false := rfl

/-! ### `State.resetEvent` -/

@[simp] theorem State.resetEvent_params (s : State) :
    (s.resetEvent).params = s.params := rfl
@[simp] theorem State.resetEvent_cmd (s : State) :
    (s.resetEvent).cmd = 0#32 := rfl
@[simp] theorem State.resetEvent_err (s : State) :
    (s.resetEvent).err = .none := rfl
@[simp] theorem State.resetEvent_inLen (s : State) :
    (s.resetEvent).inLen = 0#32 := rfl
@[simp] theorem State.resetEvent_width (s : State) :
    (s.resetEvent).width = 0#31 := rfl
@[simp] theorem State.resetEvent_height (s : State) :
    (s.resetEvent).height = 0#31 := rfl
@[simp] theorem State.resetEvent_maxval (s : State) :
    (s.resetEvent).maxval = 0#8 := rfl
@[simp] theorem State.resetEvent_variant (s : State) :
    (s.resetEvent).variant = .none := rfl
@[simp] theorem State.resetEvent_out0Len (s : State) :
    (s.resetEvent).out0Len = 0#32 := rfl
@[simp] theorem State.resetEvent_out1Len (s : State) :
    (s.resetEvent).out1Len = 0#32 := rfl
@[simp] theorem State.resetEvent_mem (s : State) :
    (s.resetEvent).mem = Memory.unspecified := rfl
@[simp] theorem State.resetEvent_script (s : State) :
    (s.resetEvent).script = s.script := rfl
@[simp] theorem State.resetEvent_readData (s : State) :
    (s.resetEvent).readData = s.readData := rfl
@[simp] theorem State.resetEvent_draws (s : State) :
    (s.resetEvent).draws = s.draws := rfl
@[simp] theorem State.resetEvent_state (s : State) :
    (s.resetEvent).status.state = .idle := rfl
@[simp] theorem State.resetEvent_phase (s : State) :
    (s.resetEvent).status.phase = .none := rfl
@[simp] theorem State.resetEvent_vFrame1 (s : State) :
    (s.resetEvent).status.vFrame1 = false := rfl
@[simp] theorem State.resetEvent_vFilt (s : State) :
    (s.resetEvent).status.vFilt = false := rfl
@[simp] theorem State.resetEvent_vGrad (s : State) :
    (s.resetEvent).status.vGrad = false := rfl
@[simp] theorem State.resetEvent_vConv (s : State) :
    (s.resetEvent).status.vConv = false := rfl
@[simp] theorem State.resetEvent_vOut0 (s : State) :
    (s.resetEvent).status.vOut0 = false := rfl
@[simp] theorem State.resetEvent_vOut1 (s : State) :
    (s.resetEvent).status.vOut1 = false := rfl

/-! ### `State.storeBytes` -/

@[simp] theorem State.storeBytes_params (s : State) (sp : ByteSpace) (vs : List Byte) :
    (s.storeBytes sp vs).params = s.params := rfl
@[simp] theorem State.storeBytes_cmd (s : State) (sp : ByteSpace) (vs : List Byte) :
    (s.storeBytes sp vs).cmd = s.cmd := rfl
@[simp] theorem State.storeBytes_err (s : State) (sp : ByteSpace) (vs : List Byte) :
    (s.storeBytes sp vs).err = s.err := rfl
@[simp] theorem State.storeBytes_inLen (s : State) (sp : ByteSpace) (vs : List Byte) :
    (s.storeBytes sp vs).inLen = s.inLen := rfl
@[simp] theorem State.storeBytes_width (s : State) (sp : ByteSpace) (vs : List Byte) :
    (s.storeBytes sp vs).width = s.width := rfl
@[simp] theorem State.storeBytes_height (s : State) (sp : ByteSpace) (vs : List Byte) :
    (s.storeBytes sp vs).height = s.height := rfl
@[simp] theorem State.storeBytes_maxval (s : State) (sp : ByteSpace) (vs : List Byte) :
    (s.storeBytes sp vs).maxval = s.maxval := rfl
@[simp] theorem State.storeBytes_variant (s : State) (sp : ByteSpace) (vs : List Byte) :
    (s.storeBytes sp vs).variant = s.variant := rfl
@[simp] theorem State.storeBytes_out0Len (s : State) (sp : ByteSpace) (vs : List Byte) :
    (s.storeBytes sp vs).out0Len = s.out0Len := rfl
@[simp] theorem State.storeBytes_out1Len (s : State) (sp : ByteSpace) (vs : List Byte) :
    (s.storeBytes sp vs).out1Len = s.out1Len := rfl
@[simp] theorem State.storeBytes_mem (s : State) (sp : ByteSpace) (vs : List Byte) :
    (s.storeBytes sp vs).mem = s.mem.setBytes sp (Cells.overlay vs (s.mem.bytes sp)) := rfl
@[simp] theorem State.storeBytes_script (s : State) (sp : ByteSpace) (vs : List Byte) :
    (s.storeBytes sp vs).script = s.script := rfl
@[simp] theorem State.storeBytes_readData (s : State) (sp : ByteSpace) (vs : List Byte) :
    (s.storeBytes sp vs).readData = s.readData := rfl
@[simp] theorem State.storeBytes_draws (s : State) (sp : ByteSpace) (vs : List Byte) :
    (s.storeBytes sp vs).draws = s.draws := rfl
@[simp] theorem State.storeBytes_state (s : State) (sp : ByteSpace) (vs : List Byte) :
    (s.storeBytes sp vs).status.state = s.status.state := rfl
@[simp] theorem State.storeBytes_phase (s : State) (sp : ByteSpace) (vs : List Byte) :
    (s.storeBytes sp vs).status.phase = s.status.phase := rfl
@[simp] theorem State.storeBytes_vFrame1 (s : State) (sp : ByteSpace) (vs : List Byte) :
    (s.storeBytes sp vs).status.vFrame1 = s.status.vFrame1 := rfl
@[simp] theorem State.storeBytes_vFilt (s : State) (sp : ByteSpace) (vs : List Byte) :
    (s.storeBytes sp vs).status.vFilt = s.status.vFilt := rfl
@[simp] theorem State.storeBytes_vGrad (s : State) (sp : ByteSpace) (vs : List Byte) :
    (s.storeBytes sp vs).status.vGrad = s.status.vGrad := rfl
@[simp] theorem State.storeBytes_vConv (s : State) (sp : ByteSpace) (vs : List Byte) :
    (s.storeBytes sp vs).status.vConv = s.status.vConv := rfl
@[simp] theorem State.storeBytes_vOut0 (s : State) (sp : ByteSpace) (vs : List Byte) :
    (s.storeBytes sp vs).status.vOut0 = s.status.vOut0 := rfl
@[simp] theorem State.storeBytes_vOut1 (s : State) (sp : ByteSpace) (vs : List Byte) :
    (s.storeBytes sp vs).status.vOut1 = s.status.vOut1 := rfl

/-! ### `State.storeConv` -/

@[simp] theorem State.storeConv_params (s : State) (vs : List Word) :
    (s.storeConv vs).params = s.params := rfl
@[simp] theorem State.storeConv_cmd (s : State) (vs : List Word) :
    (s.storeConv vs).cmd = s.cmd := rfl
@[simp] theorem State.storeConv_err (s : State) (vs : List Word) :
    (s.storeConv vs).err = s.err := rfl
@[simp] theorem State.storeConv_inLen (s : State) (vs : List Word) :
    (s.storeConv vs).inLen = s.inLen := rfl
@[simp] theorem State.storeConv_width (s : State) (vs : List Word) :
    (s.storeConv vs).width = s.width := rfl
@[simp] theorem State.storeConv_height (s : State) (vs : List Word) :
    (s.storeConv vs).height = s.height := rfl
@[simp] theorem State.storeConv_maxval (s : State) (vs : List Word) :
    (s.storeConv vs).maxval = s.maxval := rfl
@[simp] theorem State.storeConv_variant (s : State) (vs : List Word) :
    (s.storeConv vs).variant = s.variant := rfl
@[simp] theorem State.storeConv_out0Len (s : State) (vs : List Word) :
    (s.storeConv vs).out0Len = s.out0Len := rfl
@[simp] theorem State.storeConv_out1Len (s : State) (vs : List Word) :
    (s.storeConv vs).out1Len = s.out1Len := rfl
@[simp] theorem State.storeConv_mem (s : State) (vs : List Word) :
    (s.storeConv vs).mem = { s.mem with conv := Cells.overlay vs s.mem.conv } := rfl
@[simp] theorem State.storeConv_script (s : State) (vs : List Word) :
    (s.storeConv vs).script = s.script := rfl
@[simp] theorem State.storeConv_readData (s : State) (vs : List Word) :
    (s.storeConv vs).readData = s.readData := rfl
@[simp] theorem State.storeConv_draws (s : State) (vs : List Word) :
    (s.storeConv vs).draws = s.draws := rfl
@[simp] theorem State.storeConv_state (s : State) (vs : List Word) :
    (s.storeConv vs).status.state = s.status.state := rfl
@[simp] theorem State.storeConv_phase (s : State) (vs : List Word) :
    (s.storeConv vs).status.phase = s.status.phase := rfl
@[simp] theorem State.storeConv_vFrame1 (s : State) (vs : List Word) :
    (s.storeConv vs).status.vFrame1 = s.status.vFrame1 := rfl
@[simp] theorem State.storeConv_vFilt (s : State) (vs : List Word) :
    (s.storeConv vs).status.vFilt = s.status.vFilt := rfl
@[simp] theorem State.storeConv_vGrad (s : State) (vs : List Word) :
    (s.storeConv vs).status.vGrad = s.status.vGrad := rfl
@[simp] theorem State.storeConv_vConv (s : State) (vs : List Word) :
    (s.storeConv vs).status.vConv = s.status.vConv := rfl
@[simp] theorem State.storeConv_vOut0 (s : State) (vs : List Word) :
    (s.storeConv vs).status.vOut0 = s.status.vOut0 := rfl
@[simp] theorem State.storeConv_vOut1 (s : State) (vs : List Word) :
    (s.storeConv vs).status.vOut1 = s.status.vOut1 := rfl

/-! ### `State.replaceBytes` -/

@[simp] theorem State.replaceBytes_params (s : State) (sp : ByteSpace) (vs : List Byte) :
    (s.replaceBytes sp vs).params = s.params := rfl
@[simp] theorem State.replaceBytes_cmd (s : State) (sp : ByteSpace) (vs : List Byte) :
    (s.replaceBytes sp vs).cmd = s.cmd := rfl
@[simp] theorem State.replaceBytes_err (s : State) (sp : ByteSpace) (vs : List Byte) :
    (s.replaceBytes sp vs).err = s.err := rfl
@[simp] theorem State.replaceBytes_inLen (s : State) (sp : ByteSpace) (vs : List Byte) :
    (s.replaceBytes sp vs).inLen = s.inLen := rfl
@[simp] theorem State.replaceBytes_width (s : State) (sp : ByteSpace) (vs : List Byte) :
    (s.replaceBytes sp vs).width = s.width := rfl
@[simp] theorem State.replaceBytes_height (s : State) (sp : ByteSpace) (vs : List Byte) :
    (s.replaceBytes sp vs).height = s.height := rfl
@[simp] theorem State.replaceBytes_maxval (s : State) (sp : ByteSpace) (vs : List Byte) :
    (s.replaceBytes sp vs).maxval = s.maxval := rfl
@[simp] theorem State.replaceBytes_variant (s : State) (sp : ByteSpace) (vs : List Byte) :
    (s.replaceBytes sp vs).variant = s.variant := rfl
@[simp] theorem State.replaceBytes_out0Len (s : State) (sp : ByteSpace) (vs : List Byte) :
    (s.replaceBytes sp vs).out0Len = s.out0Len := rfl
@[simp] theorem State.replaceBytes_out1Len (s : State) (sp : ByteSpace) (vs : List Byte) :
    (s.replaceBytes sp vs).out1Len = s.out1Len := rfl
@[simp] theorem State.replaceBytes_mem (s : State) (sp : ByteSpace) (vs : List Byte) :
    (s.replaceBytes sp vs).mem = s.mem.setBytes sp (Cells.ofList vs) := rfl
@[simp] theorem State.replaceBytes_script (s : State) (sp : ByteSpace) (vs : List Byte) :
    (s.replaceBytes sp vs).script = s.script := rfl
@[simp] theorem State.replaceBytes_readData (s : State) (sp : ByteSpace) (vs : List Byte) :
    (s.replaceBytes sp vs).readData = s.readData := rfl
@[simp] theorem State.replaceBytes_draws (s : State) (sp : ByteSpace) (vs : List Byte) :
    (s.replaceBytes sp vs).draws = s.draws := rfl
@[simp] theorem State.replaceBytes_state (s : State) (sp : ByteSpace) (vs : List Byte) :
    (s.replaceBytes sp vs).status.state = s.status.state := rfl
@[simp] theorem State.replaceBytes_phase (s : State) (sp : ByteSpace) (vs : List Byte) :
    (s.replaceBytes sp vs).status.phase = s.status.phase := rfl
@[simp] theorem State.replaceBytes_vFrame1 (s : State) (sp : ByteSpace) (vs : List Byte) :
    (s.replaceBytes sp vs).status.vFrame1 = s.status.vFrame1 := rfl
@[simp] theorem State.replaceBytes_vFilt (s : State) (sp : ByteSpace) (vs : List Byte) :
    (s.replaceBytes sp vs).status.vFilt = s.status.vFilt := rfl
@[simp] theorem State.replaceBytes_vGrad (s : State) (sp : ByteSpace) (vs : List Byte) :
    (s.replaceBytes sp vs).status.vGrad = s.status.vGrad := rfl
@[simp] theorem State.replaceBytes_vConv (s : State) (sp : ByteSpace) (vs : List Byte) :
    (s.replaceBytes sp vs).status.vConv = s.status.vConv := rfl
@[simp] theorem State.replaceBytes_vOut0 (s : State) (sp : ByteSpace) (vs : List Byte) :
    (s.replaceBytes sp vs).status.vOut0 = s.status.vOut0 := rfl
@[simp] theorem State.replaceBytes_vOut1 (s : State) (sp : ByteSpace) (vs : List Byte) :
    (s.replaceBytes sp vs).status.vOut1 = s.status.vOut1 := rfl

/-! ### `State.markFrame1` -/

@[simp] theorem State.markFrame1_params (s : State) :
    (s.markFrame1).params = s.params := rfl
@[simp] theorem State.markFrame1_cmd (s : State) :
    (s.markFrame1).cmd = s.cmd := rfl
@[simp] theorem State.markFrame1_err (s : State) :
    (s.markFrame1).err = s.err := rfl
@[simp] theorem State.markFrame1_inLen (s : State) :
    (s.markFrame1).inLen = s.inLen := rfl
@[simp] theorem State.markFrame1_width (s : State) :
    (s.markFrame1).width = s.width := rfl
@[simp] theorem State.markFrame1_height (s : State) :
    (s.markFrame1).height = s.height := rfl
@[simp] theorem State.markFrame1_maxval (s : State) :
    (s.markFrame1).maxval = s.maxval := rfl
@[simp] theorem State.markFrame1_variant (s : State) :
    (s.markFrame1).variant = s.variant := rfl
@[simp] theorem State.markFrame1_out0Len (s : State) :
    (s.markFrame1).out0Len = s.out0Len := rfl
@[simp] theorem State.markFrame1_out1Len (s : State) :
    (s.markFrame1).out1Len = s.out1Len := rfl
@[simp] theorem State.markFrame1_mem (s : State) :
    (s.markFrame1).mem = s.mem := rfl
@[simp] theorem State.markFrame1_script (s : State) :
    (s.markFrame1).script = s.script := rfl
@[simp] theorem State.markFrame1_readData (s : State) :
    (s.markFrame1).readData = s.readData := rfl
@[simp] theorem State.markFrame1_draws (s : State) :
    (s.markFrame1).draws = s.draws := rfl
@[simp] theorem State.markFrame1_state (s : State) :
    (s.markFrame1).status.state = s.status.state := rfl
@[simp] theorem State.markFrame1_phase (s : State) :
    (s.markFrame1).status.phase = s.status.phase := rfl
@[simp] theorem State.markFrame1_vFrame1 (s : State) :
    (s.markFrame1).status.vFrame1 = true := rfl
@[simp] theorem State.markFrame1_vFilt (s : State) :
    (s.markFrame1).status.vFilt = s.status.vFilt := rfl
@[simp] theorem State.markFrame1_vGrad (s : State) :
    (s.markFrame1).status.vGrad = s.status.vGrad := rfl
@[simp] theorem State.markFrame1_vConv (s : State) :
    (s.markFrame1).status.vConv = s.status.vConv := rfl
@[simp] theorem State.markFrame1_vOut0 (s : State) :
    (s.markFrame1).status.vOut0 = s.status.vOut0 := rfl
@[simp] theorem State.markFrame1_vOut1 (s : State) :
    (s.markFrame1).status.vOut1 = s.status.vOut1 := rfl

/-! ### `State.markFilt` -/

@[simp] theorem State.markFilt_params (s : State) :
    (s.markFilt).params = s.params := rfl
@[simp] theorem State.markFilt_cmd (s : State) :
    (s.markFilt).cmd = s.cmd := rfl
@[simp] theorem State.markFilt_err (s : State) :
    (s.markFilt).err = s.err := rfl
@[simp] theorem State.markFilt_inLen (s : State) :
    (s.markFilt).inLen = s.inLen := rfl
@[simp] theorem State.markFilt_width (s : State) :
    (s.markFilt).width = s.width := rfl
@[simp] theorem State.markFilt_height (s : State) :
    (s.markFilt).height = s.height := rfl
@[simp] theorem State.markFilt_maxval (s : State) :
    (s.markFilt).maxval = s.maxval := rfl
@[simp] theorem State.markFilt_variant (s : State) :
    (s.markFilt).variant = s.variant := rfl
@[simp] theorem State.markFilt_out0Len (s : State) :
    (s.markFilt).out0Len = s.out0Len := rfl
@[simp] theorem State.markFilt_out1Len (s : State) :
    (s.markFilt).out1Len = s.out1Len := rfl
@[simp] theorem State.markFilt_mem (s : State) :
    (s.markFilt).mem = s.mem := rfl
@[simp] theorem State.markFilt_script (s : State) :
    (s.markFilt).script = s.script := rfl
@[simp] theorem State.markFilt_readData (s : State) :
    (s.markFilt).readData = s.readData := rfl
@[simp] theorem State.markFilt_draws (s : State) :
    (s.markFilt).draws = s.draws := rfl
@[simp] theorem State.markFilt_state (s : State) :
    (s.markFilt).status.state = s.status.state := rfl
@[simp] theorem State.markFilt_phase (s : State) :
    (s.markFilt).status.phase = s.status.phase := rfl
@[simp] theorem State.markFilt_vFrame1 (s : State) :
    (s.markFilt).status.vFrame1 = s.status.vFrame1 := rfl
@[simp] theorem State.markFilt_vFilt (s : State) :
    (s.markFilt).status.vFilt = true := rfl
@[simp] theorem State.markFilt_vGrad (s : State) :
    (s.markFilt).status.vGrad = s.status.vGrad := rfl
@[simp] theorem State.markFilt_vConv (s : State) :
    (s.markFilt).status.vConv = s.status.vConv := rfl
@[simp] theorem State.markFilt_vOut0 (s : State) :
    (s.markFilt).status.vOut0 = s.status.vOut0 := rfl
@[simp] theorem State.markFilt_vOut1 (s : State) :
    (s.markFilt).status.vOut1 = s.status.vOut1 := rfl

/-! ### `State.markGrad` -/

@[simp] theorem State.markGrad_params (s : State) :
    (s.markGrad).params = s.params := rfl
@[simp] theorem State.markGrad_cmd (s : State) :
    (s.markGrad).cmd = s.cmd := rfl
@[simp] theorem State.markGrad_err (s : State) :
    (s.markGrad).err = s.err := rfl
@[simp] theorem State.markGrad_inLen (s : State) :
    (s.markGrad).inLen = s.inLen := rfl
@[simp] theorem State.markGrad_width (s : State) :
    (s.markGrad).width = s.width := rfl
@[simp] theorem State.markGrad_height (s : State) :
    (s.markGrad).height = s.height := rfl
@[simp] theorem State.markGrad_maxval (s : State) :
    (s.markGrad).maxval = s.maxval := rfl
@[simp] theorem State.markGrad_variant (s : State) :
    (s.markGrad).variant = s.variant := rfl
@[simp] theorem State.markGrad_out0Len (s : State) :
    (s.markGrad).out0Len = s.out0Len := rfl
@[simp] theorem State.markGrad_out1Len (s : State) :
    (s.markGrad).out1Len = s.out1Len := rfl
@[simp] theorem State.markGrad_mem (s : State) :
    (s.markGrad).mem = s.mem := rfl
@[simp] theorem State.markGrad_script (s : State) :
    (s.markGrad).script = s.script := rfl
@[simp] theorem State.markGrad_readData (s : State) :
    (s.markGrad).readData = s.readData := rfl
@[simp] theorem State.markGrad_draws (s : State) :
    (s.markGrad).draws = s.draws := rfl
@[simp] theorem State.markGrad_state (s : State) :
    (s.markGrad).status.state = s.status.state := rfl
@[simp] theorem State.markGrad_phase (s : State) :
    (s.markGrad).status.phase = s.status.phase := rfl
@[simp] theorem State.markGrad_vFrame1 (s : State) :
    (s.markGrad).status.vFrame1 = s.status.vFrame1 := rfl
@[simp] theorem State.markGrad_vFilt (s : State) :
    (s.markGrad).status.vFilt = s.status.vFilt := rfl
@[simp] theorem State.markGrad_vGrad (s : State) :
    (s.markGrad).status.vGrad = true := rfl
@[simp] theorem State.markGrad_vConv (s : State) :
    (s.markGrad).status.vConv = s.status.vConv := rfl
@[simp] theorem State.markGrad_vOut0 (s : State) :
    (s.markGrad).status.vOut0 = s.status.vOut0 := rfl
@[simp] theorem State.markGrad_vOut1 (s : State) :
    (s.markGrad).status.vOut1 = s.status.vOut1 := rfl

/-! ### `State.markConv` -/

@[simp] theorem State.markConv_params (s : State) :
    (s.markConv).params = s.params := rfl
@[simp] theorem State.markConv_cmd (s : State) :
    (s.markConv).cmd = s.cmd := rfl
@[simp] theorem State.markConv_err (s : State) :
    (s.markConv).err = s.err := rfl
@[simp] theorem State.markConv_inLen (s : State) :
    (s.markConv).inLen = s.inLen := rfl
@[simp] theorem State.markConv_width (s : State) :
    (s.markConv).width = s.width := rfl
@[simp] theorem State.markConv_height (s : State) :
    (s.markConv).height = s.height := rfl
@[simp] theorem State.markConv_maxval (s : State) :
    (s.markConv).maxval = s.maxval := rfl
@[simp] theorem State.markConv_variant (s : State) :
    (s.markConv).variant = s.variant := rfl
@[simp] theorem State.markConv_out0Len (s : State) :
    (s.markConv).out0Len = s.out0Len := rfl
@[simp] theorem State.markConv_out1Len (s : State) :
    (s.markConv).out1Len = s.out1Len := rfl
@[simp] theorem State.markConv_mem (s : State) :
    (s.markConv).mem = s.mem := rfl
@[simp] theorem State.markConv_script (s : State) :
    (s.markConv).script = s.script := rfl
@[simp] theorem State.markConv_readData (s : State) :
    (s.markConv).readData = s.readData := rfl
@[simp] theorem State.markConv_draws (s : State) :
    (s.markConv).draws = s.draws := rfl
@[simp] theorem State.markConv_state (s : State) :
    (s.markConv).status.state = s.status.state := rfl
@[simp] theorem State.markConv_phase (s : State) :
    (s.markConv).status.phase = s.status.phase := rfl
@[simp] theorem State.markConv_vFrame1 (s : State) :
    (s.markConv).status.vFrame1 = s.status.vFrame1 := rfl
@[simp] theorem State.markConv_vFilt (s : State) :
    (s.markConv).status.vFilt = s.status.vFilt := rfl
@[simp] theorem State.markConv_vGrad (s : State) :
    (s.markConv).status.vGrad = s.status.vGrad := rfl
@[simp] theorem State.markConv_vConv (s : State) :
    (s.markConv).status.vConv = true := rfl
@[simp] theorem State.markConv_vOut0 (s : State) :
    (s.markConv).status.vOut0 = s.status.vOut0 := rfl
@[simp] theorem State.markConv_vOut1 (s : State) :
    (s.markConv).status.vOut1 = s.status.vOut1 := rfl

/-! ### `State.markOut` -/

@[simp] theorem State.markOut_params (s : State) (d : Dst) (n : Nat) :
    (s.markOut d n).params = s.params := by
  cases d <;> rfl
@[simp] theorem State.markOut_cmd (s : State) (d : Dst) (n : Nat) :
    (s.markOut d n).cmd = s.cmd := by
  cases d <;> rfl
@[simp] theorem State.markOut_err (s : State) (d : Dst) (n : Nat) :
    (s.markOut d n).err = s.err := by
  cases d <;> rfl
@[simp] theorem State.markOut_inLen (s : State) (d : Dst) (n : Nat) :
    (s.markOut d n).inLen = s.inLen := by
  cases d <;> rfl
@[simp] theorem State.markOut_width (s : State) (d : Dst) (n : Nat) :
    (s.markOut d n).width = s.width := by
  cases d <;> rfl
@[simp] theorem State.markOut_height (s : State) (d : Dst) (n : Nat) :
    (s.markOut d n).height = s.height := by
  cases d <;> rfl
@[simp] theorem State.markOut_maxval (s : State) (d : Dst) (n : Nat) :
    (s.markOut d n).maxval = s.maxval := by
  cases d <;> rfl
@[simp] theorem State.markOut_variant (s : State) (d : Dst) (n : Nat) :
    (s.markOut d n).variant = s.variant := by
  cases d <;> rfl
@[simp] theorem State.markOut_out0Len (s : State) (d : Dst) (n : Nat) :
    (s.markOut d n).out0Len = if d = .out0 then BitVec.ofNat 32 n else s.out0Len := by
  cases d <;> rfl
@[simp] theorem State.markOut_out1Len (s : State) (d : Dst) (n : Nat) :
    (s.markOut d n).out1Len = if d = .out1 then BitVec.ofNat 32 n else s.out1Len := by
  cases d <;> rfl
@[simp] theorem State.markOut_mem (s : State) (d : Dst) (n : Nat) :
    (s.markOut d n).mem = s.mem := by
  cases d <;> rfl
@[simp] theorem State.markOut_script (s : State) (d : Dst) (n : Nat) :
    (s.markOut d n).script = s.script := by
  cases d <;> rfl
@[simp] theorem State.markOut_readData (s : State) (d : Dst) (n : Nat) :
    (s.markOut d n).readData = s.readData := by
  cases d <;> rfl
@[simp] theorem State.markOut_draws (s : State) (d : Dst) (n : Nat) :
    (s.markOut d n).draws = s.draws := by
  cases d <;> rfl
@[simp] theorem State.markOut_state (s : State) (d : Dst) (n : Nat) :
    (s.markOut d n).status.state = s.status.state := by
  cases d <;> rfl
@[simp] theorem State.markOut_phase (s : State) (d : Dst) (n : Nat) :
    (s.markOut d n).status.phase = s.status.phase := by
  cases d <;> rfl
@[simp] theorem State.markOut_vFrame1 (s : State) (d : Dst) (n : Nat) :
    (s.markOut d n).status.vFrame1 = s.status.vFrame1 := by
  cases d <;> rfl
@[simp] theorem State.markOut_vFilt (s : State) (d : Dst) (n : Nat) :
    (s.markOut d n).status.vFilt = s.status.vFilt := by
  cases d <;> rfl
@[simp] theorem State.markOut_vGrad (s : State) (d : Dst) (n : Nat) :
    (s.markOut d n).status.vGrad = s.status.vGrad := by
  cases d <;> rfl
@[simp] theorem State.markOut_vConv (s : State) (d : Dst) (n : Nat) :
    (s.markOut d n).status.vConv = s.status.vConv := by
  cases d <;> rfl
@[simp] theorem State.markOut_vOut0 (s : State) (d : Dst) (n : Nat) :
    (s.markOut d n).status.vOut0 = (decide (d = .out0) || s.status.vOut0) := by
  cases d <;> rfl
@[simp] theorem State.markOut_vOut1 (s : State) (d : Dst) (n : Nat) :
    (s.markOut d n).status.vOut1 = (decide (d = .out1) || s.status.vOut1) := by
  cases d <;> rfl

/-! ### `State.commitImage` -/

@[simp] theorem State.commitImage_params (s : State) (img : DecodedImage) :
    (s.commitImage img).params = s.params := rfl
@[simp] theorem State.commitImage_cmd (s : State) (img : DecodedImage) :
    (s.commitImage img).cmd = s.cmd := rfl
@[simp] theorem State.commitImage_err (s : State) (img : DecodedImage) :
    (s.commitImage img).err = s.err := rfl
@[simp] theorem State.commitImage_inLen (s : State) (img : DecodedImage) :
    (s.commitImage img).inLen = s.inLen := rfl
@[simp] theorem State.commitImage_width (s : State) (img : DecodedImage) :
    (s.commitImage img).width = BitVec.ofNat 31 img.width := rfl
@[simp] theorem State.commitImage_height (s : State) (img : DecodedImage) :
    (s.commitImage img).height = BitVec.ofNat 31 img.height := rfl
@[simp] theorem State.commitImage_maxval (s : State) (img : DecodedImage) :
    (s.commitImage img).maxval = BitVec.ofNat 8 img.maxval := rfl
@[simp] theorem State.commitImage_variant (s : State) (img : DecodedImage) :
    (s.commitImage img).variant = variantOf img.fmt := rfl
@[simp] theorem State.commitImage_out0Len (s : State) (img : DecodedImage) :
    (s.commitImage img).out0Len = s.out0Len := rfl
@[simp] theorem State.commitImage_out1Len (s : State) (img : DecodedImage) :
    (s.commitImage img).out1Len = s.out1Len := rfl
@[simp] theorem State.commitImage_mem (s : State) (img : DecodedImage) :
    (s.commitImage img).mem = s.mem.setBytes .frame1 (Cells.ofList img.samples) := rfl
@[simp] theorem State.commitImage_script (s : State) (img : DecodedImage) :
    (s.commitImage img).script = s.script := rfl
@[simp] theorem State.commitImage_readData (s : State) (img : DecodedImage) :
    (s.commitImage img).readData = s.readData := rfl
@[simp] theorem State.commitImage_draws (s : State) (img : DecodedImage) :
    (s.commitImage img).draws = s.draws := rfl
@[simp] theorem State.commitImage_state (s : State) (img : DecodedImage) :
    (s.commitImage img).status.state = s.status.state := rfl
@[simp] theorem State.commitImage_phase (s : State) (img : DecodedImage) :
    (s.commitImage img).status.phase = s.status.phase := rfl
@[simp] theorem State.commitImage_vFrame1 (s : State) (img : DecodedImage) :
    (s.commitImage img).status.vFrame1 = true := rfl
@[simp] theorem State.commitImage_vFilt (s : State) (img : DecodedImage) :
    (s.commitImage img).status.vFilt = s.status.vFilt := rfl
@[simp] theorem State.commitImage_vGrad (s : State) (img : DecodedImage) :
    (s.commitImage img).status.vGrad = s.status.vGrad := rfl
@[simp] theorem State.commitImage_vConv (s : State) (img : DecodedImage) :
    (s.commitImage img).status.vConv = s.status.vConv := rfl
@[simp] theorem State.commitImage_vOut0 (s : State) (img : DecodedImage) :
    (s.commitImage img).status.vOut0 = s.status.vOut0 := rfl
@[simp] theorem State.commitImage_vOut1 (s : State) (img : DecodedImage) :
    (s.commitImage img).status.vOut1 = s.status.vOut1 := rfl

end Sys2Proof.Machine
end

