-- ==== Sys2Proof/Laws/Ops.lean ====
section
/-! SUPPORT. What each shared operation can do, said once: the proofs cite these and do not unfold the operations. -/

namespace Sys2Proof.Machine

@[simp] theorem State.busy_iff (s : State) : s.busy = true ↔ s.status.state = .busy := by
  simp [State.busy]

@[simp] theorem State.busy_eq_false (s : State) : s.busy = false ↔ s.status.state ≠ .busy := by
  simp [State.busy]

/-! ### The sequencer -/

/-- The phase a list names has the phase's number and stands in the list. -/
theorem phaseNamed_some {plan : List PhaseOp} {p : Phase} {op : PhaseOp} (h : phaseNamed plan p = some op) :
    op ∈ plan ∧ op.phase = p := by
  induction plan with
  | nil => simp [phaseNamed] at h
  | cons a plan ih =>
    simp only [phaseNamed] at h
    split at h
    · next ha =>
      cases h
      exact ⟨by simp, ha⟩
    · exact ⟨List.mem_cons_of_mem _ (ih h).1, (ih h).2⟩

/-- Acceptance starts the command or raises `SourceInvalidError` (R252, R253). -/
theorem accept_cases (src : Option Src) (plan : List PhaseOp) (s : State) :
    (s.sourceReady src = true ∧ accept src plan s = s.start (firstPhase plan)) ∨
      (s.sourceReady src = false ∧ accept src plan s = s.raise .sourceInvalid) := by
  unfold accept
  cases h : s.sourceReady src <;> simp

/-- `PH_DECODE` commits the image of the stream, or fails with the stream's error and leaves `FRAME1` unspecified. -/
theorem phDecode_cases (s : State) :
    (∃ img, decodeStream s.params s.stream = .ok img ∧ phDecode s = .completed (s.clearRun.commitImage img)) ∨
      (∃ e, decodeStream s.params s.stream = .error e ∧
        phDecode s = .failed e (s.clearRun.replaceBytes .frame1 [])) := by
  unfold phDecode
  cases h : decodeStream s.params s.stream with
  | ok img => exact .inl ⟨img, rfl, rfl⟩
  | error e => exact .inr ⟨e, rfl, rfl⟩

/-- Only `PH_DECODE` fails (spec/60_exceptions.md R287). -/
theorem runPhase_failed {op : PhaseOp} {s t : State} {e : ErrCode} (h : runPhase op s = .failed e t) :
    op = .decode ∧ decodeStream s.params s.stream = .error e ∧ t = s.clearRun.replaceBytes .frame1 [] := by
  cases op with
  | decode =>
    rcases phDecode_cases s with ⟨img, _, h'⟩ | ⟨e', he, h'⟩
    · simp [runPhase, h'] at h
    · simp only [runPhase, h', PhaseEnd.failed.injEq] at h
      exact ⟨rfl, h.1 ▸ he, h.2.symm⟩
  | _ => simp [runPhase] at h

/-- How a completed phase leaves the state. -/
theorem runPhase_completed {op : PhaseOp} {s t : State} (h : runPhase op s = .completed t) :
    (op = .decode ∧ ∃ img, decodeStream s.params s.stream = .ok img ∧ t = s.clearRun.commitImage img) ∨
      (op = .blur ∧ t = phBlur s) ∨ (∃ src, op = .sobel src ∧ t = phSobel src s) ∨
      (∃ src dst fmt, (op = .encode src dst fmt ∨ op = .encode2 src dst fmt) ∧ t = phEncode src dst fmt s) ∨
      (∃ src k, op = .convolve src k ∧ t = phConvolve src k s) := by
  cases op with
  | decode =>
    rcases phDecode_cases s with ⟨img, hi, h'⟩ | ⟨e', _, h'⟩
    · simp only [runPhase, h', PhaseEnd.completed.injEq] at h
      exact .inl ⟨rfl, img, hi, h.symm⟩
    · simp [runPhase, h'] at h
  | blur =>
    simp only [runPhase, PhaseEnd.completed.injEq] at h
    exact .inr (.inl ⟨rfl, h.symm⟩)
  | sobel src =>
    simp only [runPhase, PhaseEnd.completed.injEq] at h
    exact .inr (.inr (.inl ⟨src, rfl, h.symm⟩))
  | encode src dst fmt =>
    simp only [runPhase, PhaseEnd.completed.injEq] at h
    exact .inr (.inr (.inr (.inl ⟨src, dst, fmt, .inl rfl, h.symm⟩)))
  | convolve src k =>
    simp only [runPhase, PhaseEnd.completed.injEq] at h
    exact .inr (.inr (.inr (.inr ⟨src, k, rfl, h.symm⟩)))
  | encode2 src dst fmt =>
    simp only [runPhase, PhaseEnd.completed.injEq] at h
    exact .inr (.inr (.inr (.inl ⟨src, dst, fmt, .inr rfl, h.symm⟩)))

/-- A block step that answers a next state executed the phase `STATUS.PHASE` names, and completed it or took the error
entry. -/
theorem blockPhase_next {plan : List PhaseOp} {s t : State} (h : blockPhase plan s = .next t) :
    ∃ op ∈ plan, op.phase = s.status.phase ∧
      ((∃ u, runPhase op s = .completed u ∧ t = u.finish (nextPhase plan s.status.phase)) ∨
        (∃ e u, runPhase op s = .failed e u ∧ t = u.raise e)) := by
  unfold blockPhase at h
  cases hp : phaseNamed plan s.status.phase with
  | none => simp [hp] at h
  | some op =>
    obtain ⟨hmem, hph⟩ := phaseNamed_some hp
    refine ⟨op, hmem, hph, ?_⟩
    simp only [hp] at h
    cases hr : runPhase op s with
    | completed u =>
      simp only [hr, Host.Outcome.next.injEq] at h
      exact .inl ⟨u, rfl, h.symm⟩
    | failed e u =>
      simp only [hr, Host.Outcome.next.injEq] at h
      exact .inr ⟨e, u, rfl, h.symm⟩

theorem transition_of_busy {src : Option Src} {plan : List PhaseOp} {s : State} (h : s.status.state = .busy) :
    transition src plan s = blockPhase plan s := by
  simp [transition, h]

theorem transition_of_not_busy {src : Option Src} {plan : List PhaseOp} {s : State} (h : s.status.state ≠ .busy) :
    transition src plan s = .next (accept src plan s) := by
  simp [transition, h]

/-! ### The commands -/

/-- A command other than the ill-formed `SOBEL GRAD` and `CLEAR` is a transition of its row of the phase table. -/
theorem exec_eq_transition {i : Instr} (hwf : i.wf = true) (hc : i ≠ .clear) (s : State) :
    exec i s = transition (sourceOf i) (phasesOf i) s := by
  cases i with
  | clear => exact absurd rfl hc
  | sobel src =>
    cases src with
    | grad => simp [Instr.wf] at hwf
    | frame1 => rfl
    | filt => rfl
  | _ => rfl

/-- What a command does in a state that is not `BUSY` (R250 to R254): always a next state. -/
theorem exec_of_not_busy {s : State} (h : s.status.state ≠ .busy) (i : Instr) :
    exec i s = .next (if i = .clear then s.release else if i.wf then accept (sourceOf i) (phasesOf i) s
      else s.raise .illegalCommand) := by
  cases i with
  | clear => simp [exec, execClear, h]
  | sobel src =>
    cases src with
    | grad => simp [exec, execSobel, illegalOperand, h, Instr.wf]
    | frame1 => simp [exec, execSobel, transition_of_not_busy h, Instr.wf]
    | filt => simp [exec, execSobel, transition_of_not_busy h, Instr.wf]
  | decode => simp [exec, execDecode, transition_of_not_busy h, Instr.wf]
  | blur => simp [exec, execBlur, transition_of_not_busy h, Instr.wf]
  | encode src dst fmt => simp [exec, execEncode, transition_of_not_busy h, Instr.wf]
  | convolve src k => simp [exec, execConvolve, transition_of_not_busy h, Instr.wf]
  | process fmt => simp [exec, execProcess, transition_of_not_busy h, Instr.wf]

/-- What a command does in a `BUSY` state (R256): its block step; `CLEAR` and `SOBEL GRAD` have none. -/
theorem exec_of_busy {s : State} (h : s.status.state = .busy) (i : Instr) :
    exec i s = if i.wf then blockPhase (phasesOf i) s else .fault .phaseNotOfCommand := by
  cases i with
  | clear => simp [exec, execClear, h, Instr.wf, blockPhase, phasesOf, phaseNamed]
  | sobel src =>
    cases src with
    | grad => simp [exec, execSobel, illegalOperand, h, Instr.wf]
    | frame1 => simp [exec, execSobel, transition_of_busy h, Instr.wf]
    | filt => simp [exec, execSobel, transition_of_busy h, Instr.wf]
  | decode => simp [exec, execDecode, transition_of_busy h, Instr.wf]
  | blur => simp [exec, execBlur, transition_of_busy h, Instr.wf]
  | encode src dst fmt => simp [exec, execEncode, transition_of_busy h, Instr.wf]
  | convolve src k => simp [exec, execConvolve, transition_of_busy h, Instr.wf]
  | process fmt => simp [exec, execProcess, transition_of_busy h, Instr.wf]

/-- No command is refused. -/
theorem exec_not_refused (i : Instr) (s : State) (r : Refusal) : exec i s ≠ .refused r := by
  by_cases h : s.status.state = .busy
  · rw [exec_of_busy h]
    split
    · unfold blockPhase
      split
      · simp
      · split <;> simp
    · simp
  · rw [exec_of_not_busy h]
    simp

/-! ### The two agents -/

/-- What a host write to `CMD` can do (R250, R251). -/
theorem hostWriteCmd_cases (c : Word) (s : State) :
    (s.status.state = .busy ∧ hostWriteCmd c s = .next s) ∨
      (s.status.state ≠ .busy ∧ (∃ e, decode c = .error e) ∧
        hostWriteCmd c s = .next (({ s with cmd := c } : State).raise .illegalCommand)) ∨
      (s.status.state ≠ .busy ∧ ∃ i, decode c = .ok i ∧ hostWriteCmd c s = exec i { s with cmd := c }) := by
  by_cases h : s.status.state = .busy
  · exact .inl ⟨h, by simp [hostWriteCmd, h]⟩
  · cases hd : decode c with
    | error e => exact .inr (.inl ⟨h, ⟨e, rfl⟩, by simp [hostWriteCmd, h, hd]⟩)
    | ok i => exact .inr (.inr ⟨h, i, rfl, by simp [hostWriteCmd, h, hd]⟩)

/-- What the block's turn can do (R256). -/
theorem blockTurn_cases (s : State) :
    (s.status.state ≠ .busy ∧ blockTurn s = .next s) ∨
      (s.status.state = .busy ∧ (∃ e, decode s.cmd = .error e) ∧ blockTurn s = .fault .noCommandInExecution) ∨
      (s.status.state = .busy ∧ ∃ i, decode s.cmd = .ok i ∧ blockTurn s = exec i s.tick) := by
  by_cases h : s.status.state = .busy
  · cases hd : decode s.cmd with
    | error e => exact .inr (.inl ⟨h, ⟨e, rfl⟩, by simp [blockTurn, h, hd]⟩)
    | ok i => exact .inr (.inr ⟨h, i, rfl, by simp [blockTurn, h, hd]⟩)
  · exact .inl ⟨h, by simp [blockTurn, h]⟩

/-- What a host access other than a write to `CMD` can do (R65, R66): it is refused, changes nothing, or changes
`IN_LEN`, `IN`, or the host's own read data. -/
theorem hostAccess_cases (a : HostAct) (s : State) :
    (∃ c, a = .writeReg 0 c ∧ hostAccess a s = hostWriteCmd c s) ∨ (∃ r, hostAccess a s = .refused r) ∨
      hostAccess a s = .next s ∨
      (∃ v, a = .writeReg 3 v ∧ s.status.state ≠ .busy ∧
        hostAccess a s = .next { s with inLen := saturate s.params v }) ∨
      (∃ k v, a = .writeByte .inp k v ∧ s.status.state ≠ .busy ∧ k < s.params.maxInBytes ∧
        hostAccess a s = .next { s with mem := { s.mem with inp := Cells.write s.mem.inp k v } }) ∨
      (∃ d, a.isWrite = false ∧ hostAccess a s = .next { s.tick with readData := d }) := by
  cases a with
  | readReg k =>
    cases hr : RegName.ofIndex k with
    | none => exact .inr (.inl ⟨.noSuchRegister k, by simp [hostAccess, hostReadReg, hr]⟩)
    | some r => exact .inr (.inr (.inr (.inr (.inr ⟨_, rfl, by simp only [hostAccess, hostReadReg, hr]; rfl⟩))))
  | writeReg k v =>
    cases hr : RegName.ofIndex k with
    | none => exact .inr (.inl ⟨.noSuchRegister k, by simp [hostAccess, hostWriteReg, hr]⟩)
    | some r =>
      have hk : k = r.index := by
        unfold RegName.ofIndex at hr
        split at hr <;> simp_all <;> subst r <;> rfl
      subst hk
      cases r with
      | cmd => exact .inl ⟨v, rfl, by simp [hostAccess, hostWriteReg, hr]⟩
      | inLen =>
        by_cases h : s.status.state = .busy
        · exact .inr (.inr (.inl (by simp [hostAccess, hostWriteReg, hr, hostWriteInLen, h])))
        · exact .inr (.inr (.inr (.inl ⟨v, rfl, h, by simp [hostAccess, hostWriteReg, hr, hostWriteInLen, h]⟩)))
      | _ => exact .inr (.inr (.inl (by simp [hostAccess, hostWriteReg, hr])))
  | readByte sp k =>
    by_cases h : capacity s.params sp ≤ k
    · exact .inr (.inl ⟨.noSuchElement k, by simp [hostAccess, hostReadByte, h]⟩)
    · exact .inr (.inr (.inr (.inr (.inr ⟨_, rfl, by simp only [hostAccess, hostReadByte, h, if_false]; rfl⟩))))
  | writeByte sp k v =>
    by_cases h : capacity s.params sp ≤ k
    · exact .inr (.inl ⟨.noSuchElement k, by simp [hostAccess, hostWriteByte, h]⟩)
    · by_cases hb : s.status.state = .busy
      · exact .inr (.inr (.inl (by simp [hostAccess, hostWriteByte, h, hb])))
      · cases sp with
        | inp =>
          refine .inr (.inr (.inr (.inr (.inl ⟨k, v, rfl, hb, ?_, by simp [hostAccess, hostWriteByte, h, hb]⟩))))
          simpa [capacity] using h
        | _ => exact .inr (.inr (.inl (by simp [hostAccess, hostWriteByte, h, hb])))
  | readConv k =>
    by_cases h : s.params.maxPixels ≤ k
    · exact .inr (.inl ⟨.noSuchElement k, by simp [hostAccess, hostReadConv, h]⟩)
    · exact .inr (.inr (.inr (.inr (.inr ⟨_, rfl, by simp only [hostAccess, hostReadConv, h, if_false]; rfl⟩))))
  | writeConv k v =>
    by_cases h : s.params.maxPixels ≤ k
    · exact .inr (.inl ⟨.noSuchElement k, by simp [hostAccess, hostWriteConv, h]⟩)
    · exact .inr (.inr (.inl (by simp [hostAccess, hostWriteConv, h])))

/-- What a step is, by the script. -/
theorem step_cases (s : State) :
    (s.script = [] ∧ step s = blockTurn s) ∨
      (∃ a rest, s.script = .host a :: rest ∧ step s = hostAccess a { s with script := rest }) ∨
      (∃ rest, s.script = .block :: rest ∧ step s = blockTurn { s with script := rest }) ∨
      (∃ rest, s.script = .poll :: rest ∧ s.status.state = .busy ∧ step s = blockTurn s) ∨
      (∃ rest, s.script = .poll :: rest ∧ s.status.state ≠ .busy ∧
        step s = hostReadReg 1 { s with script := rest }) ∨
      (∃ rest, s.script = .reset :: rest ∧ step s = .next ({ s with script := rest } : State).resetEvent) := by
  unfold step transitionOf
  cases hs : s.script with
  | nil => exact .inl ⟨rfl, rfl⟩
  | cons a rest =>
    cases a with
    | host a => exact .inr (.inl ⟨a, rest, rfl, rfl⟩)
    | block => exact .inr (.inr (.inl ⟨rest, rfl, rfl⟩))
    | poll =>
      by_cases hb : s.status.state = .busy
      · exact .inr (.inr (.inr (.inl ⟨rest, rfl, hb, by simp [pollTurn, hb]⟩)))
      · exact .inr (.inr (.inr (.inr (.inl ⟨rest, rfl, hb, by simp [pollTurn, hb, RegName.index]⟩))))
    | reset => exact .inr (.inr (.inr (.inr (.inr ⟨rest, rfl, rfl⟩))))

end Sys2Proof.Machine
end

