-- ==== Sys2Proof/Laws/PerInstr.lean ====
section
/-! SUPPORT. Facts about each command as syntax. -/

namespace Sys2Proof.Laws.EncodedOp

/-- R90, R91, R96: the encoded word has the command's operation code, and its reserved bits are 0. -/
def Statement (i : Instr) : Prop :=
  zeroField (encode i) = 0 ∧ (opField (encode i)).toNat =
    (match i with
      | .clear => 0
      | .decode => 1
      | .blur => 2
      | .sobel _ => 3
      | .encode _ _ _ => 4
      | .convolve _ _ => 5
      | .process _ => 6)

theorem clear : Statement .clear := by
  unfold Statement
  decide

theorem decode : Statement .decode := by
  unfold Statement
  decide

theorem blur : Statement .blur := by
  unfold Statement
  decide

theorem sobel (src : Src) : Statement (.sobel src) := by
  unfold Statement
  cases src <;> decide

theorem encode (src : Src) (dst : Dst) (fmt : Fmt) : Statement (.encode src dst fmt) := by
  unfold Statement
  cases src <;> cases dst <;> cases fmt <;> decide

theorem convolve (src : Src) (k : KIdx) : Statement (.convolve src k) := by
  unfold Statement
  cases src <;> cases k <;> decide

theorem process (fmt : Fmt) : Statement (.process fmt) := by
  unfold Statement
  cases fmt <;> decide

end Sys2Proof.Laws.EncodedOp
end

