-- ==== Sys2Proof/Laws/Turns.lean ====
section
/-! SUPPORT. Whose step a step is: the block's, the host's or the reset input's. -/

namespace Sys2Proof.Machine

/-- The block's step is its turn, on a script that is as before or shorter (45 R256). -/
theorem step_of_blockMoves {s : State} (h : blockMoves s) :
    ∃ rest, step s = blockTurn { s with script := rest } := by
  obtain ⟨hb, hs | ⟨rest, hs⟩ | ⟨rest, hs⟩⟩ := h
  · exact ⟨s.script, show transitionOf s = blockTurn s by simp [transitionOf, hs]⟩
  · exact ⟨rest, by simp [step, transitionOf, hs]⟩
  · exact ⟨s.script, show transitionOf s = blockTurn s by simp [transitionOf, hs, pollTurn, hb]⟩

/-- A host access is no step of the block. -/
theorem not_blockMoves_of_access {s : State} {a : HostAct} {rest : List Turn} (hs : s.script = .host a :: rest) :
    ¬ blockMoves s := by
  simp [blockMoves, hs]

/-- While `BUSY` a step is the block's, the host's or the reset input's, and exactly one of them. -/
theorem busy_turn_cases {s : State} (hb : s.status.state = .busy) :
    (blockMoves s ∧ ¬ resets s) ∨
      (∃ a rest, s.script = .host a :: rest ∧ ¬ blockMoves s ∧ ¬ resets s) ∨ (resets s ∧ ¬ blockMoves s) := by
  rcases hs : s.script with _ | ⟨_ | _ | _ | _, rest⟩ <;> simp [blockMoves, resets, hb, hs]

end Sys2Proof.Machine
end

