-- ==== Sys2Proof/Tests/Slice0.lean ====
section
/-! SUPPORT. Tests with expected values from the spec (30 R90 to R100, the vectors of 95), and one witness for the
hypotheses of each statement. -/

namespace Sys2Proof.Tests

open Sys2Proof.Machine

/-! ## Well-formedness -/

theorem test_wf_refuses_sobel_grad : Instr.wf (.sobel .grad) = false := by decide

theorem test_wf_admits_sobel_filt : Instr.wf (.sobel .filt) = true := by decide

theorem test_params_wf_reset : paramsWf Config.resetParams := by decide +kernel

theorem test_params_wf_refuses_small_out :
    ¬ paramsWf { Config.resetParams with maxOutBytes := 4194326 } := by decide +kernel

/-! ## Decoding: words written out field by field, `ZERO DST BIN K SRC OP` (R90) -/

/-- A word from its fields, highest first. -/
def fields (zero : BitVec 22) (dst bin : BitVec 1) (k src : BitVec 2) (op : BitVec 4) : Word :=
  zero ++ dst ++ bin ++ k ++ src ++ op

/-- The command of a word of the opcode table. -/
def cmd (w : Word) : Option Instr := decodeTableWord 32 w.toNat

theorem test_decode_clear : cmd (fields 0 0 0 0b00 0b00 0b0000) = some .clear := by decide

theorem test_decode_decode : cmd (fields 0 0 0 0b00 0b00 0b0001) = some .decode := by decide

theorem test_decode_blur : cmd (fields 0 0 0 0b00 0b00 0b0010) = some .blur := by decide

theorem test_decode_sobel :
    cmd (fields 0 0 0 0b00 0b00 0b0011) = some (.sobel .frame1) ∧
      cmd (fields 0 0 0 0b00 0b01 0b0011) = some (.sobel .filt) := by decide

theorem test_decode_encode :
    cmd (fields 0 0 1 0b00 0b01 0b0100) = some (.encode .filt .out0 .bin) ∧
      cmd (fields 0 1 0 0b00 0b10 0b0100) = some (.encode .grad .out1 .text) ∧
      cmd (fields 0 1 1 0b00 0b00 0b0100) = some (.encode .frame1 .out1 .bin) := by decide

theorem test_decode_convolve :
    cmd (fields 0 0 0 0b01 0b00 0b0101) = some (.convolve .frame1 .sobelx) ∧
      cmd (fields 0 0 0 0b10 0b01 0b0101) = some (.convolve .filt .sobely) ∧
      cmd (fields 0 0 0 0b00 0b10 0b0101) = some (.convolve .grad .gauss5) := by decide

theorem test_decode_process :
    cmd (fields 0 0 1 0b00 0b00 0b0110) = some (.process .bin) ∧
      cmd (fields 0 0 0 0b00 0b00 0b0110) = some (.process .text) := by decide

/-- The words of the table of 95 section 2.7 that name the two encodes of `PROCESS`, against the encoder. -/
theorem test_encode_words :
    encode (.encode .filt .out0 .bin) = 0x114#32 ∧ encode (.encode .grad .out1 .bin) = 0x324#32 ∧
      encode (.convolve .grad .sobely) = 0xA5#32 ∧ encode (.sobel .filt) = 0x13#32 ∧
      encode (.process .bin) = 0x106#32 := by decide

/-- The sample illegal words of 95 section 2.7. -/
theorem test_decode_refuses :
    [0x7, 0xF, 0x10, 0x11, 0x101, 0x12, 0x23, 0x33, 0x43, 0x103, 0x34, 0x44, 0x35, 0xC5, 0x105, 0x205, 0x5A, 0x16,
      0x206, 0x400, 0x80000001, 0xFFFFFFFF].map (decodeTableWord 32) = List.replicate 22 none := by decide +kernel

/-! ## Small states -/

/-- A small instance: R7 needs `3 + (2 * 2 + 2) + 4 + 4 * 30 = 133` output bytes. -/
def small : Params where
  maxPixels := 30
  maxInBytes := 64
  maxOutBytes := 133
  magicBin := (0x50#8, 0x35#8)
  magicText := (0x50#8, 0x32#8)

theorem test_params_wf_small : paramsWf small := by decide +kernel

def bytesOf (l : List Nat) : List Byte := l.map (BitVec.ofNat 8)

/-- Right after reset, with a stream in `IN`. -/
def loaded (l : List Nat) : State :=
  { State.resetOf small with
    mem := { Memory.unspecified with inp := Cells.ofList (bytesOf l) }
    inLen := BitVec.ofNat 32 l.length }

/-- `DONE` with an image of `w` columns and the samples `l` in `FRAME1`. -/
def holding (w m : Nat) (l : List Nat) : State :=
  { State.resetOf small with
    status := { Status.reset with state := .done, vFrame1 := true }
    width := BitVec.ofNat 31 w
    height := BitVec.ofNat 31 (l.length / w)
    maxval := BitVec.ofNat 8 m
    variant := .binary
    mem := { Memory.unspecified with frame1 := Cells.ofList (bytesOf l) } }

/-- `BUSY` with a command at one of its phases. -/
def busyWith (i : Instr) (p : Phase) (s : State) : State :=
  { s with cmd := encode i, err := .none, status := { s.status with state := .busy, phase := p } }

/-- The next state of an outcome. -/
def after (o : Host.Outcome State Fault Refusal) : Option State :=
  match o with
  | .next t => some t
  | .fault _ => none
  | .refused _ => none

/-- The values a buffer lists from index 0. -/
def values {w : Nat} (m : Cells w) : List Nat := m.map fun c => c.2.toNat

/-! ## One step of each command (values from 95 sections 1 to 3) -/

/-- 95 P3 row 7: `CLEAR` after a run. -/
theorem test_clear_releases :
    (after (exec .clear (holding 1 255 [7]))).map (fun t => (t.status.word.toNat, t.width.toNat, t.mem.frame1.length))
      = some (0, 0, 1) := by decide +kernel

/-- 95 T1 shortened: a comment in the header, padding and leading zeros in the samples. -/
theorem test_decode_text :
    (after (exec .decode (busyWith .decode .decode
      (loaded [0x50, 0x32, 0x0A, 0x23, 0x63, 0x0A, 0x32, 0x20, 0x31, 0x20, 0x39, 0x0A, 0x30, 0x30, 0x33, 0x20, 0x34])))).map
        (fun t => (t.status.word.toNat, t.width.toNat, t.height.toNat, t.maxval.toNat, values t.mem.frame1))
      = some (0x102, 2, 1, 9, [3, 4]) := by decide +kernel

/-- 95 B37: the count is checked before the sample values. -/
theorem test_decode_counts_first :
    (after (exec .decode (busyWith .decode .decode
      (loaded [0x50, 0x35, 0x0A, 0x32, 0x20, 0x32, 0x0A, 0x31, 0x30, 0x30, 0x0A, 0x64, 0x65, 0x00])))).map
        (fun t => (t.status.word.toNat, t.err)) = some (3, .truncatedData) := by decide +kernel

/-- 95 section 2.4: 3×3 `1..9`. -/
theorem test_blur_ramp :
    (after (exec .blur (busyWith .blur .blur (holding 3 9 [1, 2, 3, 4, 5, 6, 7, 8, 9])))).map
        (fun t => (t.status.word.toNat, values t.mem.filt))
      = some (0x302, [1, 2, 1, 2, 3, 2, 2, 3, 2]) := by decide +kernel

/-- 95 section 2.4: `0 0 60 / 0 0 0 / 0 0 0` gives `n = 7200`, rounded up to 85. -/
theorem test_sobel_rounds :
    (after (exec (.sobel .frame1) (busyWith (.sobel .frame1) .sobel (holding 3 255 [0, 0, 60, 0, 0, 0, 0, 0, 0])))).map
        (fun t => (t.status.word.toNat, values t.mem.grad))
      = some (0x502, [0, 0, 0, 0, 85, 0, 0, 0, 0]) := by decide +kernel

/-- 95 P5: the magnitude 400 is clamped to 255 although `MAXVAL` is 100. -/
theorem test_sobel_clamps :
    (after (exec (.sobel .frame1)
      (busyWith (.sobel .frame1) .sobel (holding 3 100 [0, 0, 100, 0, 0, 100, 0, 0, 100])))).map
        (fun t => values t.mem.grad) = some [0, 0, 0, 0, 255, 0, 0, 0, 0] := by decide +kernel

/-- 95 section 1.1: the 15 bytes of the binary stream. -/
theorem test_encode_binary :
    (after (exec (.encode .frame1 .out0 .bin)
      (busyWith (.encode .frame1 .out0 .bin) .encode (holding 2 255 [0, 9, 10, 255])))).map
        (fun t => (t.status.word.toNat, t.out0Len.toNat, values t.mem.out0))
      = some (0x1102, 15, [0x50, 0x35, 0x0A, 0x32, 0x20, 0x32, 0x0A, 0x32, 0x35, 0x35, 0x0A, 0x00, 0x09, 0x0A, 0xFF]) := by
  decide +kernel

/-- 95 section 1.1: the 22 bytes of the text stream, in `OUT1`. -/
theorem test_encode_text :
    (after (exec (.encode .frame1 .out1 .text)
      (busyWith (.encode .frame1 .out1 .text) .encode (holding 2 255 [0, 9, 10, 255])))).map
        (fun t => (t.status.word.toNat, t.out1Len.toNat, values t.mem.out1))
      = some (0x2102, 22, [0x50, 0x32, 0x0A, 0x32, 0x20, 0x32, 0x0A, 0x32, 0x35, 0x35, 0x0A, 0x30, 0x20, 0x39, 0x0A, 0x31,
        0x30, 0x20, 0x32, 0x35, 0x35, 0x0A]) := by decide +kernel

/-- 95 section 2.3, 2×2 of 255: signed results, stored in two's complement. -/
theorem test_convolve_sobelx :
    (after (exec (.convolve .frame1 .sobelx)
      (busyWith (.convolve .frame1 .sobelx) .convolve (holding 2 255 [255, 255, 255, 255])))).map
        (fun t => (t.status.word.toNat, t.mem.conv.map fun c => c.2.toInt))
      = some (0x902, [765, -765, 765, -765]) := by decide +kernel

/-- 95 section 2.3, 3×3 ramp, `K = 2`: the orientation of the kernel. -/
theorem test_convolve_sobely :
    (after (exec (.convolve .frame1 .sobely)
      (busyWith (.convolve .frame1 .sobely) .convolve (holding 3 9 [1, 2, 3, 4, 5, 6, 7, 8, 9])))).map
        (fun t => t.mem.conv.map fun c => c.2.toInt)
      = some [13, 20, 17, 18, 24, 18, -13, -20, -17] := by decide +kernel

/-- 95 P1: the host's write starts phase 1. -/
theorem test_process_starts :
    (after (step (State.reset.withFetchWord 32 0x106))).map (fun t => (t.cmd.toNat, t.status.word.toNat))
      = some (0x106, 0x005) := by decide +kernel

/-- 95 P1: the fourth phase of `PROCESS` goes on at phase 6. -/
theorem test_process_encodes_filt :
    (after (exec (.process .bin) (busyWith (.process .bin) .encode
      { holding 1 255 [7] with
        status := { Status.reset with vFrame1 := true, vFilt := true, vGrad := true }
        mem := { Memory.unspecified with filt := [(0, 0x2A#8)] } }))).map
        (fun t => (t.status.word.toNat, values t.mem.out0))
      = some (0x1719, [0x50, 0x35, 0x0A, 0x31, 0x20, 0x31, 0x0A, 0x32, 0x35, 0x35, 0x0A, 0x2A]) := by decide +kernel

theorem test_reset_memory_wf : State.reset.mem.wf = true := by decide

/-! ## Tools for the witnesses -/

theorem samplesAtMost_of_all {n bound : Nat} {m : Cells 8} (h : (m.all fun c => decide (c.2.toNat ≤ bound)) = true) :
    samplesAtMost n bound m := by
  intro i b _ hr
  induction m with
  | nil => simp [Cells.read] at hr
  | cons c rest ih =>
    obtain ⟨a, v⟩ := c
    simp only [List.all_cons, Bool.and_eq_true, decide_eq_true_eq] at h
    simp only [Cells.read] at hr
    split at hr
    · cases hr
      exact h.1
    · exact ih h.2 hr

theorem digitString_of {l : List Byte} {v : Nat} (h : (!l.isEmpty && l.all isDigit) = true) (hv : digitsValue l = v) :
    digitString l v := by
  simp only [Bool.and_eq_true, Bool.not_eq_true', List.isEmpty_eq_false_iff, List.all_eq_true, isDigit,
    decide_eq_true_eq] at h
  exact ⟨h.1, h.2, hv⟩

theorem gapBytes_space : gapBytes [0x20#8] :=
  ⟨[[0x20#8]], by simp, by simp [gapItem, wsByte], rfl⟩

/-- A stream with single spaces in its header. -/
theorem headedStream_spaced (p : Params) (fmt : Fmt) {w h m : Int} {a b c : List Byte} (ha : headerInt a w)
    (hb : headerInt b h) (hc : headerInt c m) (area : List Byte) :
    headedStream p fmt w h m area
      (magicBytes p fmt ++ [0x20#8] ++ a ++ [0x20#8] ++ b ++ [0x20#8] ++ c ++ 0x20#8 :: area) :=
  ⟨_, 0x20#8 :: area, ⟨_, a, _, b, _, c, gapBytes_space, ha, gapBytes_space, hb, gapBytes_space, hc, rfl⟩,
    .inr ⟨0x20#8, by simp [wsByte], rfl⟩, rfl⟩

theorem headerInt_of {l : List Byte} {v : Nat} (h : (!l.isEmpty && l.all isDigit) = true) (hv : digitsValue l = v) :
    headerInt l v := .inl ⟨v, digitString_of h hv, rfl⟩

theorem headerInt_neg {l : List Byte} {v : Nat} (h : (!l.isEmpty && l.all isDigit) = true) (hv : digitsValue l = v) :
    headerInt (0x2D#8 :: l) (-(v : Int)) := .inr ⟨l, v, rfl, digitString_of h hv, rfl⟩

/-- A stream with a well-formed header is longer than its magic token. -/
theorem length_of_headedStream {p : Params} {fmt : Fmt} {w h m : Int} {area l : List Byte}
    (hl : headedStream p fmt w h m area l) : 2 < l.length := by
  obtain ⟨hdr, tail, ⟨g1, a, g2, b, g3, c, _, ha, _, _, _, _, rfl⟩, _, rfl⟩ := hl
  have h1 : a ≠ [] := by
    rcases ha with ⟨n, ⟨hne, _⟩, _⟩ | ⟨d, n, rfl, _⟩
    · exact hne
    · simp
  have h2 : 0 < a.length := List.length_pos_iff.mpr h1
  cases fmt <;> simp [magicBytes] <;> omega

/-- About to decode a stream. -/
def decoding (l : List Nat) : State := busyWith .decode .decode (loaded l)

/-- About to decode a stream in the first phase of `PROCESS`. -/
def processing (l : List Nat) : State := busyWith (.process .bin) .decode (loaded l)

/-- The 1×1 image of sample 7. -/
def onePixel (fmt : Fmt) : DecodedImage where
  fmt := fmt
  width := 1
  height := 1
  maxval := 255
  samples := [7#8]

/-- `P5 1 1 255 \x07` (95 B14). -/
def streamB14 : List Nat := [0x50, 0x35, 0x20, 0x31, 0x20, 0x31, 0x20, 0x32, 0x35, 0x35, 0x20, 0x07]

/-- `P2 1 1 255 7`. -/
def streamText : List Nat := [0x50, 0x32, 0x20, 0x31, 0x20, 0x31, 0x20, 0x32, 0x35, 0x35, 0x20, 0x37]

theorem graymapStream_B14 : graymapStream small (onePixel .bin) (bytesOf streamB14) :=
  ⟨by decide, by decide, by decide, by decide, by decide, [7#8],
    headedStream_spaced small .bin (headerInt_of (v := 1) (l := bytesOf [0x31]) (by decide) (by decide))
      (headerInt_of (v := 1) (l := bytesOf [0x31]) (by decide) (by decide))
      (headerInt_of (v := 255) (l := bytesOf [0x32, 0x35, 0x35]) (by decide) (by decide)) [7#8],
    ⟨[], rfl⟩, by decide⟩

theorem graymapStream_text : graymapStream small (onePixel .text) (bytesOf streamText) :=
  ⟨by decide, by decide, by decide, by decide, by decide, bytesOf [0x37],
    headedStream_spaced small .text (headerInt_of (v := 1) (l := bytesOf [0x31]) (by decide) (by decide))
      (headerInt_of (v := 1) (l := bytesOf [0x31]) (by decide) (by decide))
      (headerInt_of (v := 255) (l := bytesOf [0x32, 0x35, 0x35]) (by decide) (by decide)) (bytesOf [0x37]),
    .token [] (bytesOf [0x37]) [] [] 7 (by simp) (digitString_of (by decide) (by decide)) (by decide) (.inl rfl)
      (.done [])⟩

/-- A header with these dimensions and `max_value`, then `area`, as `P5` or `P2`. -/
theorem headed_of_stream {s : State} {fmt : Fmt} {w h m : Int} {a b c : List Byte} (area : List Byte)
    (ha : headerInt a w) (hb : headerInt b h) (hc : headerInt c m)
    (hs : s.stream = magicBytes s.params fmt ++ [0x20#8] ++ a ++ [0x20#8] ++ b ++ [0x20#8] ++ c ++ 0x20#8 :: area) :
    headedStream s.params fmt w h m area s.stream := by
  rw [hs]
  exact headedStream_spaced s.params fmt ha hb hc area

/-- `DONE`, every buffer valid, a 2×1 image with a gradient sample above `MAXVAL`. -/
def everything : State :=
  { State.resetOf small with
    status :=
      { state := .done, phase := .none, vFrame1 := true, vFilt := true, vGrad := true, vConv := true, vOut0 := true,
        vOut1 := true }
    inLen := 64#32
    width := 2#31
    height := 1#31
    maxval := 9#8
    variant := .text
    out0Len := 1#32
    out1Len := 2#32
    mem :=
      { Memory.unspecified with
        frame1 := [(0, 9#8), (1, 0#8)], filt := [(0, 0#8), (1, 9#8)], grad := [(0, 0#8), (1, 255#8)]
        conv := [(0, 0#32), (1, 0xFFFFFFFF#32)], out0 := [(0, 0x50#8)], out1 := [(0, 0x50#8), (1, 0x35#8)] } }

theorem image_everything : 1 ≤ everything.width.toNat ∧ 1 ≤ everything.height.toNat ∧
    everything.sampleCount ≤ everything.params.maxPixels ∧ everything.variant ≠ .none ∧
    samplesAtMost everything.sampleCount everything.maxval.toNat everything.mem.frame1 :=
  ⟨by decide, by decide, by decide, by decide, samplesAtMost_of_all (by decide)⟩

theorem filtered_everything : samplesAtMost everything.sampleCount everything.maxval.toNat everything.mem.filt :=
  samplesAtMost_of_all (by decide)

theorem lengths_everything : everything.out0Len.toNat ≤ everything.params.maxOutBytes ∧
    everything.out1Len.toNat ≤ everything.params.maxOutBytes := by decide

theorem written_everything :
    (everything.status.vFrame1 = true → Cells.full everything.sampleCount everything.mem.frame1)
      ∧ (everything.status.vFilt = true → Cells.full everything.sampleCount everything.mem.filt)
      ∧ (everything.status.vGrad = true → Cells.full everything.sampleCount everything.mem.grad)
      ∧ (everything.status.vConv = true → Cells.full everything.sampleCount everything.mem.conv)
      ∧ (everything.status.vOut0 = true → Cells.full everything.out0Len.toNat everything.mem.out0)
      ∧ (everything.status.vOut1 = true → Cells.full everything.out1Len.toNat everything.mem.out1) := by
  unfold Cells.full
  decide

theorem inv_everything (script : List Turn) : Inv { everything with script := script } where
  params := test_params_wf_small
  canonical := (by decide : everything.mem.wf = true)
  within := (by decide : everything.mem.within everything.params = true)
  phase := by simp [everything]
  err := by simp [everything, State.resetOf]
  derived := fun _ => rfl
  image := fun _ => image_everything
  noImage := by simp [everything]
  filtered := fun _ => filtered_everything
  lengths := lengths_everything
  inLen := (by decide : everything.inLen.toNat ≤ everything.params.maxInBytes)
  written := written_everything
  noOutput := by simp [everything]
  idle := by simp [everything]
  busy := by simp [everything]

/-- The same block `BUSY` with a command at a phase that reads a valid buffer. -/
theorem inv_busyWith (i : Instr) (p : Phase) (hd : decode (encode i) = .ok i) (hp : phasesFrom (phasesOf i) p ≠ [])
    (hn : p ≠ .none) (hv : supplied (fun _ => true) (phasesFrom (phasesOf i) p) = true) :
    Inv (busyWith i p everything) where
  params := test_params_wf_small
  canonical := (by decide : everything.mem.wf = true)
  within := (by decide : everything.mem.within everything.params = true)
  phase := by simp [busyWith, hn]
  err := by simp [busyWith]
  derived := fun _ => rfl
  image := fun _ => image_everything
  noImage := by simp [busyWith, everything]
  filtered := fun _ => filtered_everything
  lengths := lengths_everything
  inLen := (by decide : everything.inLen.toNat ≤ everything.params.maxInBytes)
  written := written_everything
  noOutput := by simp [busyWith, everything]
  idle := by simp [busyWith]
  busy := by
    refine fun _ => ⟨i, hd, hp, ?_⟩
    have h : (busyWith i p everything).sourceValid = fun _ => true := by
      funext b
      cases b <;> rfl
    rw [h]
    exact hv

/-! ## Witnesses: encoding, step, acceptance -/

/-- Every clause, at the ends of its range. -/
theorem witness_FirstFailingCheckDecides :
    (zeroField 0x400#32 ≠ 0 ∧ zeroField 0x80000001#32 ≠ 0) ∧
      (zeroField 0x7#32 = 0 ∧ 7 ≤ (opField 0x7#32).toNat ∧ zeroField 0x3FF#32 = 0 ∧ 7 ≤ (opField 0x3FF#32).toNat) ∧
      (zeroField 0x3F2#32 = 0 ∧ (opField 0x3F2#32).toNat < 3 ∧ srcField 0x3F2#32 ≠ 0) ∧
      (zeroField 0x3C0#32 = 0 ∧ (opField 0x3C0#32).toNat < 3 ∧ srcField 0x3C0#32 = 0 ∧ kField 0x3C0#32 ≠ 0) ∧
      (zeroField 0x301#32 = 0 ∧ (opField 0x301#32).toNat < 3 ∧ srcField 0x301#32 = 0 ∧ kField 0x301#32 = 0 ∧
          binField 0x301#32 ≠ 0) ∧
      (zeroField 0x202#32 = 0 ∧ (opField 0x202#32).toNat < 3 ∧ srcField 0x202#32 = 0 ∧ kField 0x202#32 = 0 ∧
          binField 0x202#32 = 0 ∧ dstField 0x202#32 ≠ 0) ∧
      (zeroField 0x3E3#32 = 0 ∧ (opField 0x3E3#32).toNat = 3 ∧ 2 ≤ (srcField 0x3E3#32).toNat) ∧
      (zeroField 0x353#32 = 0 ∧ (opField 0x353#32).toNat = 3 ∧ (srcField 0x353#32).toNat < 2 ∧ kField 0x353#32 ≠ 0) ∧
      (zeroField 0x313#32 = 0 ∧ (opField 0x313#32).toNat = 3 ∧ (srcField 0x313#32).toNat < 2 ∧ kField 0x313#32 = 0 ∧
          binField 0x313#32 ≠ 0) ∧
      (zeroField 0x213#32 = 0 ∧ (opField 0x213#32).toNat = 3 ∧ (srcField 0x213#32).toNat < 2 ∧ kField 0x213#32 = 0 ∧
          binField 0x213#32 = 0 ∧ dstField 0x213#32 ≠ 0) ∧
      (zeroField 0x3F4#32 = 0 ∧ (opField 0x3F4#32).toNat = 4 ∧ (srcField 0x3F4#32).toNat = 3) ∧
      (zeroField 0x364#32 = 0 ∧ (opField 0x364#32).toNat = 4 ∧ (srcField 0x364#32).toNat < 3 ∧ kField 0x364#32 ≠ 0) ∧
      (zeroField 0x3F5#32 = 0 ∧ (opField 0x3F5#32).toNat = 5 ∧ (srcField 0x3F5#32).toNat = 3) ∧
      (zeroField 0x3E5#32 = 0 ∧ (opField 0x3E5#32).toNat = 5 ∧ (srcField 0x3E5#32).toNat < 3 ∧
        (kField 0x3E5#32).toNat = 3) ∧
      (zeroField 0x3A5#32 = 0 ∧ (opField 0x3A5#32).toNat = 5 ∧ (srcField 0x3A5#32).toNat < 3 ∧
        (kField 0x3A5#32).toNat < 3 ∧ binField 0x3A5#32 ≠ 0) ∧
      (zeroField 0x2A5#32 = 0 ∧ (opField 0x2A5#32).toNat = 5 ∧ (srcField 0x2A5#32).toNat < 3 ∧
        (kField 0x2A5#32).toNat < 3 ∧ binField 0x2A5#32 = 0 ∧ dstField 0x2A5#32 ≠ 0) ∧
      (zeroField 0x3F6#32 = 0 ∧ (opField 0x3F6#32).toNat = 6 ∧ srcField 0x3F6#32 ≠ 0) ∧
      (zeroField 0x3C6#32 = 0 ∧ (opField 0x3C6#32).toNat = 6 ∧ srcField 0x3C6#32 = 0 ∧ kField 0x3C6#32 ≠ 0) ∧
      (zeroField 0x306#32 = 0 ∧ (opField 0x306#32).toNat = 6 ∧ srcField 0x306#32 = 0 ∧ kField 0x306#32 = 0 ∧
          dstField 0x306#32 ≠ 0) := by
  and_intros <;> decide

theorem witness_StepRunsTheCommandTheHostWrites :
    ∃ (s : State) (c : Word) (i : Instr) (rest : List Turn), s.status.state ≠ .busy ∧
      s.script = .host (.writeReg 0 c) :: rest ∧ decode c = .ok i :=
  ⟨{ holding 1 255 [7] with script := [.host (.writeReg 0 0x3#32), .poll] }, 0x3#32, .sobel .frame1, [.poll],
    by decide, rfl, rfl⟩

/-- All three clauses. -/
theorem witness_StepRunsTheCommandInExecution :
    ∃ (s : State) (i : Instr) (rest : List Turn), s.status.state = .busy ∧ decode s.cmd = .ok i ∧ s.script = [] ∧
      ({ s with script := .block :: rest } : State).script = .block :: rest ∧
      ({ s with script := .poll :: rest } : State).script = .poll :: rest :=
  ⟨decoding streamB14, .decode, [], by decide, rfl, rfl, rfl, rfl⟩

/-- Both clauses. -/
theorem witness_PlacedWordIsTheNextCommandRun :
    ∃ (s u : State) (i : Instr), i.wf = true ∧ s.status.state ≠ .busy ∧ u.status.state = .busy :=
  ⟨State.reset, decoding streamB14, .decode, by decide, by decide, by decide⟩

/-- Both clauses. -/
theorem witness_BlockWithoutAStepWaits :
    ∃ (s u : State) (rest : List Turn), s.status.state ≠ .busy ∧ s.script = [] ∧ u.status.state ≠ .busy ∧
      u.script = .block :: rest :=
  ⟨State.reset, { everything with script := [.block] }, [], by decide, rfl, by decide, rfl⟩

theorem witness_IllegalWordRaisesIllegalCommand :
    ∃ (s : State) (c : Word) (e : DecodeError) (rest : List Turn), s.status.state ≠ .busy ∧
      s.script = .host (.writeReg 0 c) :: rest ∧ decode c = .error e :=
  ⟨{ everything with script := [.host (.writeReg 0 0x5A#32)] }, 0x5A#32, .reservedOp, [], by decide, rfl, rfl⟩

/-- Every command with a source, every buffer. -/
theorem witness_InvalidSourceRaisesSourceInvalid :
    ∃ s : State, s.status.state ≠ .busy ∧ s.status.vFrame1 = false ∧ s.status.vFilt = false ∧ s.status.vGrad = false ∧
      (∃ (i : Instr) (b : Src), i = .blur ∧ b = .frame1) ∧ (∃ (i : Instr) (b : Src), i = .sobel b ∧ b ≠ .grad) ∧
      (∃ (i : Instr) (b : Src), b = .grad ∧ ∃ d f, i = .encode b d f) ∧
      (∃ (i : Instr) (b : Src), b = .filt ∧ ∃ k, i = .convolve b k) :=
  ⟨State.reset, by decide, rfl, rfl, rfl, ⟨_, _, rfl, rfl⟩, ⟨_, .filt, rfl, by decide⟩,
    ⟨_, _, rfl, .out1, .text, rfl⟩, ⟨_, _, rfl, .sobely, rfl⟩⟩

/-- Every row. -/
theorem witness_ReadyCommandStarts :
    ∃ s : State, s.status.state ≠ .busy ∧ s.status.vFrame1 = true ∧ s.status.vFilt = true ∧
      (∃ (i : Instr) (p : Phase), i = .decode ∧ p = .decode) ∧
      (∃ (i : Instr) (p : Phase), (∃ f, i = .process f) ∧ p = .decode) ∧
      (∃ (i : Instr) (p : Phase), i = .blur ∧ p = .blur) ∧
      (∃ (i : Instr) (p : Phase), i = .sobel .frame1 ∧ p = .sobel) ∧
      (∃ (i : Instr) (p : Phase), i = .sobel .filt ∧ p = .sobel) ∧
      (∃ (i : Instr) (p : Phase), ∃ b d f, i = .encode b d f ∧ p = .encode ∧ s.sourceValid b = true) ∧
      (∃ (i : Instr) (p : Phase), ∃ b k, i = .convolve b k ∧ p = .convolve ∧ s.sourceValid b = true) :=
  ⟨everything, by decide, rfl, rfl, ⟨_, _, rfl, rfl⟩, ⟨_, _, ⟨.text, rfl⟩, rfl⟩, ⟨_, _, rfl, rfl⟩, ⟨_, _, rfl, rfl⟩,
    ⟨_, _, rfl, rfl⟩, ⟨_, _, .grad, .out1, .bin, rfl, rfl, rfl⟩, ⟨_, _, .grad, .sobely, rfl, rfl, rfl⟩⟩

theorem witness_SobelOfGradIsIllegal : ∃ s : State, s.status.state ≠ .busy := ⟨State.reset, by decide⟩

theorem witness_ClearReleasesTheRun : ∃ s : State, s.status.state ≠ .busy ∧ s.status.vOut1 = true :=
  ⟨everything, by decide, rfl⟩

theorem witness_ClearMatchesResetButForInLen :
    ∃ (s : State) (rest : List Turn) (r : RegName), s.status.state ≠ .busy ∧ r ≠ .inLen ∧
      s.script = .host (.writeReg 0 0) :: rest :=
  ⟨{ everything with script := [.host (.writeReg 0 0)] }, [], .out1Len, by decide, by decide, rfl⟩

/-! ## Witnesses: decode -/

/-- Both commands, both variants. -/
theorem witness_DecodeCompletesOnGraymapStreams :
    (∃ (s : State) (q : Phase) (img : DecodedImage), decodes .decode q ∧ paramsWf s.params ∧ executes s .decode ∧
      s.err = .none ∧ graymapStream s.params img s.stream) ∧
    (∃ (s : State) (q : Phase) (img : DecodedImage), decodes (.process .bin) q ∧ paramsWf s.params ∧
      executes s .decode ∧ s.err = .none ∧ graymapStream s.params img s.stream) :=
  ⟨⟨decoding streamB14, .none, onePixel .bin, .inl ⟨rfl, rfl⟩, test_params_wf_small, ⟨rfl, rfl⟩, rfl, by
      rw [show (decoding streamB14).stream = bytesOf streamB14 by decide]; exact graymapStream_B14⟩,
    processing streamText, .blur, onePixel .text, .inr ⟨.bin, rfl, rfl⟩, test_params_wf_small, ⟨rfl, rfl⟩, rfl, by
      rw [show (processing streamText).stream = bytesOf streamText by decide]; exact graymapStream_text⟩

/-- The empty stream (95 B1). -/
theorem witness_DecodeRejectsEveryOtherStream :
    ∃ (s : State) (i : Instr) (q : Phase), decodes i q ∧ paramsWf s.params ∧ executes s .decode ∧
      ∀ img, ¬ graymapStream s.params img s.stream := by
  refine ⟨decoding [], .decode, .none, .inl ⟨rfl, rfl⟩, test_params_wf_small, ⟨rfl, rfl⟩, fun img h => ?_⟩
  obtain ⟨_, _, _, _, _, area, h, _⟩ := h
  have := length_of_headedStream h
  rw [show (decoding []).stream = [] by decide] at this
  simp at this

/-- `P6` (95 B4). -/
theorem witness_UnrecognisedMagicRaisesFormat :
    ∃ (s : State) (i : Instr) (q : Phase), decodes i q ∧ executes s .decode ∧
      ∀ rest, s.stream ≠ magicBytes s.params .bin ++ rest ∧ s.stream ≠ magicBytes s.params .text ++ rest := by
  refine ⟨processing [0x50, 0x36], .process .bin, .blur, .inr ⟨.bin, rfl, rfl⟩, ⟨rfl, rfl⟩, fun rest => ?_⟩
  rw [show (processing [0x50, 0x36]).stream = [0x50#8, 0x36#8] by decide]
  simp [magicBytes, processing, busyWith, loaded, State.resetOf, small]

/-- `P5` (95 B3). -/
theorem witness_MalformedHeaderRaisesFormat :
    ∃ (s : State) (i : Instr) (q : Phase), decodes i q ∧ executes s .decode ∧
      ∀ fmt w h m area, ¬ headedStream s.params fmt w h m area s.stream := by
  refine ⟨decoding [0x50, 0x35], .decode, .none, .inl ⟨rfl, rfl⟩, ⟨rfl, rfl⟩, fun fmt w h m area hh => ?_⟩
  have := length_of_headedStream hh
  rw [show (decoding [0x50, 0x35]).stream = [0x50#8, 0x35#8] by decide] at this
  simp at this

/-- `P5 -3 0 999`, width -3 and height 0 (95 B19, B20, B25). -/
theorem witness_NonPositiveDimensionRaisesInvalidDimension :
    ∃ (s : State) (i : Instr) (q : Phase) (fmt : Fmt) (w h m : Int) (area : List Byte), decodes i q ∧
      paramsWf s.params ∧ executes s .decode ∧ headedStream s.params fmt w h m area s.stream ∧ w ≤ 0 ∧ h ≤ 0 :=
  ⟨decoding [0x50, 0x35, 0x20, 0x2D, 0x33, 0x20, 0x30, 0x20, 0x39, 0x39, 0x39, 0x20], .decode, .none, .bin, _, _, _, [],
    .inl ⟨rfl, rfl⟩, test_params_wf_small, ⟨rfl, rfl⟩,
    headed_of_stream [] (headerInt_neg (v := 3) (l := bytesOf [0x33]) (by decide) (by decide))
      (headerInt_of (v := 0) (l := bytesOf [0x30]) (by decide) (by decide))
      (headerInt_of (v := 999) (l := bytesOf [0x39, 0x39, 0x39]) (by decide) (by decide)) (by decide),
    by decide, by decide⟩

/-- `max_value` 256 and -1 (95 B26, B27). -/
theorem witness_MaxValueOutOfRangeRaisesFormat :
    (∃ (s : State) (i : Instr) (q : Phase) (fmt : Fmt) (w h m : Int) (area : List Byte), decodes i q ∧
      paramsWf s.params ∧ executes s .decode ∧ headedStream s.params fmt w h m area s.stream ∧ 0 < w ∧ 0 < h ∧ m < 0) ∧
    (∃ (s : State) (i : Instr) (q : Phase) (fmt : Fmt) (w h m : Int) (area : List Byte), decodes i q ∧
      paramsWf s.params ∧ executes s .decode ∧ headedStream s.params fmt w h m area s.stream ∧ 0 < w ∧ 0 < h ∧
      255 < m) :=
  ⟨⟨decoding [0x50, 0x35, 0x20, 0x31, 0x20, 0x31, 0x20, 0x2D, 0x31, 0x20], .decode, .none, .bin, _, _, _, [],
      .inl ⟨rfl, rfl⟩, test_params_wf_small, ⟨rfl, rfl⟩,
      headed_of_stream [] (headerInt_of (v := 1) (l := bytesOf [0x31]) (by decide) (by decide))
        (headerInt_of (v := 1) (l := bytesOf [0x31]) (by decide) (by decide))
        (headerInt_neg (v := 1) (l := bytesOf [0x31]) (by decide) (by decide)) (by decide),
      by decide, by decide, by decide⟩,
    decoding [0x50, 0x35, 0x20, 0x31, 0x20, 0x31, 0x20, 0x32, 0x35, 0x36, 0x20], .decode, .none, .bin, _, _, _, [],
      .inl ⟨rfl, rfl⟩, test_params_wf_small, ⟨rfl, rfl⟩,
      headed_of_stream [] (headerInt_of (v := 1) (l := bytesOf [0x31]) (by decide) (by decide))
        (headerInt_of (v := 1) (l := bytesOf [0x31]) (by decide) (by decide))
        (headerInt_of (v := 256) (l := bytesOf [0x32, 0x35, 0x36]) (by decide) (by decide)) (by decide),
      by decide, by decide, by decide⟩

/-- One pixel more than `MAX_PIXELS`: 31 × 1 with 30. -/
theorem witness_TooManyPixelsRaisesAllocation :
    ∃ (s : State) (i : Instr) (q : Phase) (fmt : Fmt) (w h m : Int) (area : List Byte), decodes i q ∧
      paramsWf s.params ∧ executes s .decode ∧ headedStream s.params fmt w h m area s.stream ∧ 0 < w ∧ 0 < h ∧ 0 ≤ m ∧
      m ≤ 255 ∧ (s.params.maxPixels : Int) < w * h :=
  ⟨decoding [0x50, 0x32, 0x20, 0x33, 0x31, 0x20, 0x31, 0x20, 0x30, 0x20], .decode, .none, .text, _, _, _, [],
    .inl ⟨rfl, rfl⟩, test_params_wf_small, ⟨rfl, rfl⟩,
    headed_of_stream [] (headerInt_of (v := 31) (l := bytesOf [0x33, 0x31]) (by decide) (by decide))
      (headerInt_of (v := 1) (l := bytesOf [0x31]) (by decide) (by decide))
      (headerInt_of (v := 0) (l := bytesOf [0x30]) (by decide) (by decide)) (by decide),
    by decide, by decide, by decide, by decide, by decide⟩

/-- 2 × 1 samples, `max_value` 100: one sample too few; the last of two samples 101 (95 B36, B37). -/
theorem witness_BinarySamplesAreCountedThenRanged :
    (∃ (s : State) (i : Instr) (q : Phase) (w h m : Int) (area : List Byte), decodes i q ∧ paramsWf s.params ∧
      executes s .decode ∧ headedStream s.params .bin w h m area s.stream ∧ 0 < w ∧ 0 < h ∧ 0 ≤ m ∧ m ≤ 255 ∧
      w * h ≤ s.params.maxPixels ∧ (area.length : Int) < w * h) ∧
    (∃ (s : State) (i : Instr) (q : Phase) (w h m : Int) (area : List Byte), decodes i q ∧ paramsWf s.params ∧
      executes s .decode ∧ headedStream s.params .bin w h m area s.stream ∧ 0 < w ∧ 0 < h ∧ 0 ≤ m ∧ m ≤ 255 ∧
      w * h ≤ s.params.maxPixels ∧ w * h ≤ area.length ∧ ∃ b ∈ area.take (w * h).toNat, m < b.toNat) :=
  ⟨⟨decoding [0x50, 0x35, 0x20, 0x32, 0x20, 0x31, 0x20, 0x31, 0x30, 0x30, 0x20, 0x65], .decode, .none, _, _, _, [0x65#8],
      .inl ⟨rfl, rfl⟩, test_params_wf_small, ⟨rfl, rfl⟩,
      headed_of_stream [0x65#8] (headerInt_of (v := 2) (l := bytesOf [0x32]) (by decide) (by decide))
        (headerInt_of (v := 1) (l := bytesOf [0x31]) (by decide) (by decide))
        (headerInt_of (v := 100) (l := bytesOf [0x31, 0x30, 0x30]) (by decide) (by decide)) (by decide),
      by decide, by decide, by decide, by decide, by decide, by decide⟩,
    decoding [0x50, 0x35, 0x20, 0x32, 0x20, 0x31, 0x20, 0x31, 0x30, 0x30, 0x20, 0x64, 0x65], .decode, .none, _, _, _,
      [0x64#8, 0x65#8], .inl ⟨rfl, rfl⟩, test_params_wf_small, ⟨rfl, rfl⟩,
      headed_of_stream [0x64#8, 0x65#8] (headerInt_of (v := 2) (l := bytesOf [0x32]) (by decide) (by decide))
        (headerInt_of (v := 1) (l := bytesOf [0x31]) (by decide) (by decide))
        (headerInt_of (v := 100) (l := bytesOf [0x31, 0x30, 0x30]) (by decide) (by decide)) (by decide),
      by decide, by decide, by decide, by decide, by decide, by decide, by decide⟩

/-- The state of a text stream `P2 2 1 9 ` and what follows. -/
def textOf (area : List Nat) : State :=
  decoding ([0x50, 0x32, 0x20, 0x32, 0x20, 0x31, 0x20, 0x39, 0x20] ++ area)

/-- Every clause of `TextSampleErrorsComeInStreamOrder` after one good token `9` and a space: the end of the stream; a
`#` (95 T12); the token `10` above `max_value` 9; the token `3` followed by `x` (95 T15). -/
theorem witness_TextSampleErrorsComeInStreamOrder (rest : List Nat)
    (hr : rest ∈ [[], [0x23], [0x31, 0x30], [0x33, 0x78]]) :
    ∃ (s : State) (i : Instr) (q : Phase) (w h m : Int) (tokens : List (List Byte × List Byte)) (blank : List Byte),
      decodes i q ∧ paramsWf s.params ∧ executes s .decode ∧
      headedStream s.params .text w h m ((tokens.flatMap fun x => x.1 ++ x.2) ++ blank ++ bytesOf rest) s.stream ∧
      0 < w ∧ 0 < h ∧ 0 ≤ m ∧ m ≤ 255 ∧ w * h ≤ s.params.maxPixels ∧ (tokens.length : Int) < w * h ∧
      (∀ x ∈ tokens, (∀ b ∈ x.1, wsByte b) ∧ ∃ v : Nat, digitString x.2 v ∧ (v : Int) ≤ m) ∧
      (∀ x ∈ tokens.tail, x.1 ≠ []) ∧ (∀ b ∈ blank, wsByte b) ∧ (tokens = [] ∨ blank ≠ [] ∨ bytesOf rest = []) := by
  have hstream : (textOf (0x39 :: 0x20 :: rest)).stream =
      magicBytes small .text ++ [0x20#8] ++ bytesOf [0x32] ++ [0x20#8] ++ bytesOf [0x31] ++ [0x20#8] ++ bytesOf [0x39] ++
        0x20#8 :: ([([], bytesOf [0x39])].flatMap (fun x : List Byte × List Byte => x.1 ++ x.2) ++ [0x20#8] ++
          bytesOf rest) := by
    simp only [List.mem_cons, List.not_mem_nil, or_false] at hr
    rcases hr with rfl | rfl | rfl | rfl <;> decide
  refine ⟨textOf (0x39 :: 0x20 :: rest), .decode, .none, _, _, _, [([], bytesOf [0x39])], [0x20#8], .inl ⟨rfl, rfl⟩,
    test_params_wf_small, ⟨rfl, rfl⟩,
    headed_of_stream _ (headerInt_of (v := 2) (l := bytesOf [0x32]) (by decide) (by decide))
      (headerInt_of (v := 1) (l := bytesOf [0x31]) (by decide) (by decide))
      (headerInt_of (v := 9) (l := bytesOf [0x39]) (by decide) (by decide)) hstream,
    by decide, by decide, by decide, by decide, (by decide : (2 : Int) * 1 ≤ small.maxPixels), by decide, ?_, by simp, by simp [wsByte], .inr (.inl (by simp))⟩
  intro x hx
  simp only [List.mem_singleton] at hx
  subst hx
  exact ⟨by simp, 9, digitString_of (by decide) (by decide), by decide⟩

/-- The three clauses' own premises on those rests. -/
theorem witness_TextSampleErrorsComeInStreamOrder_rests :
    (∃ b more, bytesOf [0x23] = b :: more ∧ ¬ wsByte b ∧ ¬ digitByte b) ∧
    (∃ (d more : List Byte) (v : Nat), bytesOf [0x31, 0x30] = d ++ more ∧ digitString d v ∧
      (∀ b, more.head? = some b → ¬ digitByte b) ∧ (9 < v ∨ ∃ b, more.head? = some b ∧ ¬ wsByte b)) ∧
    (∃ (d more : List Byte) (v : Nat), bytesOf [0x33, 0x78] = d ++ more ∧ digitString d v ∧
      (∀ b, more.head? = some b → ¬ digitByte b) ∧ (9 < v ∨ ∃ b, more.head? = some b ∧ ¬ wsByte b)) :=
  ⟨⟨0x23#8, [], rfl, by simp [wsByte], by simp [digitByte]⟩,
    ⟨bytesOf [0x31, 0x30], [], 10, rfl, digitString_of (by decide) (by decide), by simp, .inl (by decide)⟩,
    bytesOf [0x33], [0x78#8], 3, rfl, digitString_of (by decide) (by decide), by simp [digitByte],
    .inr ⟨0x78#8, rfl, by simp [wsByte]⟩⟩

/-- Two runs that differ in all they did before: one that fails, and one that succeeds. -/
theorem witness_DecodeForgetsTheRunBefore :
    (∃ (s s' t t' : State) (i : Instr) (q : Phase), decodes i q ∧ executes s .decode ∧ executes s' .decode ∧
      s.params = s'.params ∧ s.stream = s'.stream ∧ exec i s = .next t ∧ exec i s' = .next t' ∧ s.status ≠ s'.status ∧
      t.status.state = .error) ∧
    (∃ (s s' t t' : State) (i : Instr) (q : Phase), decodes i q ∧ executes s .decode ∧ executes s' .decode ∧
      s.params = s'.params ∧ s.stream = s'.stream ∧ exec i s = .next t ∧ exec i s' = .next t' ∧ s.status ≠ s'.status ∧
      t.status.state ≠ .error ∧ 0 < t.sampleCount) :=
  ⟨⟨decoding [], busyWith .decode .decode { everything with inLen := 0 }, _, _, .decode, .none, .inl ⟨rfl, rfl⟩,
      ⟨rfl, rfl⟩, ⟨rfl, rfl⟩, rfl, by decide, rfl, rfl, by decide, by decide +kernel⟩,
    decoding streamB14,
    busyWith .decode .decode { everything with inLen := 12, mem := (loaded streamB14).mem }, _, _, .decode, .none,
    .inl ⟨rfl, rfl⟩, ⟨rfl, rfl⟩, ⟨rfl, rfl⟩, rfl, by decide, rfl, rfl, by decide, by decide +kernel, by decide +kernel⟩

/-! ## Witnesses: stages -/

/-- Both signs. -/
theorem witness_TdivTruncatesTowardZero : (1 ≤ (159 : Int) ∧ (0 : Int) ≤ 0) ∧ (1 ≤ (159 : Int) ∧ (-1 : Int) < 0) := by
  decide

theorem witness_ConvIsThePaddedKernelSum :
    ∃ (img : Nat → Byte) (w h row col : Nat) (s : Int → Int → Int) (sum : Int),
      (∀ dr dc : Int, s dr dc =
        if 0 ≤ (row : Int) + dr ∧ (row : Int) + dr < h ∧ 0 ≤ (col : Int) + dc ∧ (col : Int) + dc < w then
          ((img (((row : Int) + dr) * w + ((col : Int) + dc)).toNat).toNat : Int) else 0) ∧
      sum = 2 * (s (-2) (-2) + s (-2) 2 + s 2 (-2) + s 2 2) +
            4 * (s (-2) (-1) + s (-2) 1 + s 2 (-1) + s 2 1 + s (-1) (-2) + s (-1) 2 + s 1 (-2) + s 1 2) +
            5 * (s (-2) 0 + s 2 0 + s 0 (-2) + s 0 2) + 9 * (s (-1) (-1) + s (-1) 1 + s 1 (-1) + s 1 1) +
            12 * (s (-1) 0 + s 1 0 + s 0 (-1) + s 0 1) + 15 * s 0 0 :=
  ⟨fun k => BitVec.ofNat 8 k, 3, 3, 0, 2, _, _, fun _ _ => rfl, rfl⟩

theorem witness_BlurNeverExceedsTheLargestSample :
    ∃ (img : Nat → Byte) (w h m : Nat), (∀ k, k < w * h → (img k).toNat ≤ m) ∧ 0 < w * h :=
  ⟨fun k => BitVec.ofNat 8 k, 3, 3, 8, by decide, by decide⟩

/-- A centre with full support and a border position, at the smallest size that has both. -/
theorem witness_UniformImageDarkensAtTheBorder :
    ∃ (img : Nat → Byte) (w h row col row' col' v : Nat), (∀ k, k < w * h → (img k).toNat = v) ∧ row < h ∧ col < w ∧
      1 ≤ v ∧ (2 ≤ row ∧ row + 3 ≤ h ∧ 2 ≤ col ∧ col + 3 ≤ w) ∧ row' < h ∧ col' < w ∧
      ¬ (2 ≤ row' ∧ row' + 3 ≤ h ∧ 2 ≤ col' ∧ col' + 3 ≤ w) :=
  ⟨fun _ => 200#8, 5, 5, 2, 2, 2, 1, 200, fun _ _ => rfl, by decide, by decide, by decide, by decide, by decide,
    by decide, by decide⟩

/-- Also with a position to look at. -/
theorem witness_ConvolveStoresEveryPosition :
    ∃ (s : State) (row col : Nat), executes s .convolve ∧ s.err = .none ∧ row < s.height.toNat ∧ col < s.width.toNat :=
  ⟨busyWith (.convolve .frame1 .sobelx) .convolve (holding 3 9 [1, 2, 3, 4, 5, 6, 7, 8, 9]), 2, 2, ⟨rfl, rfl⟩, rfl,
    by decide, by decide⟩

/-- `BLUR` and the second phase of `PROCESS`. -/
theorem witness_BlurStoresEveryPosition :
    ∃ s : State, executes s .blur ∧ s.err = .none ∧ 0 < s.sampleCount ∧
      (∃ (i : Instr) (q : Phase), i = .blur ∧ q = .none) ∧
      (∃ (i : Instr) (q : Phase), (∃ f, i = .process f) ∧ q = .sobel) :=
  ⟨busyWith .blur .blur (holding 3 9 [1, 2, 3, 4, 5, 6, 7, 8, 9]), ⟨rfl, rfl⟩, rfl, by decide, ⟨_, _, rfl, rfl⟩,
    ⟨_, _, ⟨.bin, rfl⟩, rfl⟩⟩

/-- With an interior position and a border one. -/
theorem witness_SobelStoresTheClampedMagnitude :
    ∃ s : State, executes s .sobel ∧ s.err = .none ∧ interior s.width.toNat s.height.toNat 1 1 ∧
      ¬ interior s.width.toNat s.height.toNat 2 1 ∧ 2 < s.height.toNat ∧
      (∃ (i : Instr) (src : Src) (q : Phase), i = .sobel src ∧ src ≠ .grad ∧ q = .none) ∧
      (∃ (i : Instr) (src : Src) (q : Phase), (∃ f, i = .process f) ∧ src = .filt ∧ q = .encode) :=
  ⟨busyWith (.sobel .frame1) .sobel (holding 3 9 [1, 2, 3, 4, 5, 6, 7, 8, 9]), ⟨rfl, rfl⟩, rfl, by decide, by decide,
    by decide, ⟨_, .filt, _, rfl, by decide, rfl⟩, ⟨_, _, _, ⟨.bin, rfl⟩, rfl, rfl⟩⟩

theorem witness_GradientIgnoresAConstantOffset :
    ∃ (img img' : Nat → Byte) (w h d : Nat), (∀ k, k < w * h → (img' k).toNat = (img k).toNat + d) ∧ 0 < d ∧
      interior w h 1 1 :=
  ⟨fun k => BitVec.ofNat 8 k, fun k => BitVec.ofNat 8 (k + 247), 3, 3, 247, by decide, by decide, by decide⟩

/-- The three forms. -/
theorem witness_EncodeStoresTheStream :
    ∃ s u : State, executes s .encode ∧ s.err = .none ∧ 0 < s.sampleCount ∧ (s.encoded .filt .text).length < 2 ^ 32 ∧
      executes u .encode2 ∧ u.err = .none ∧ 0 < u.sampleCount ∧ (u.encoded .grad .bin).length < 2 ^ 32 :=
  ⟨busyWith (.encode .filt .out1 .text) .encode everything, busyWith (.process .bin) .encode2 everything, ⟨rfl, rfl⟩, rfl,
    by decide, by decide +kernel, ⟨rfl, rfl⟩, rfl, by decide, by decide +kernel⟩

theorem witness_EncodeNeverOverflows : ∃ s : State, Inv s ∧ s.status.vFrame1 = true :=
  ⟨everything, inv_everything [], rfl⟩

/-- A block that is about to encode `FRAME1`. -/
def encoding : State := busyWith (.encode .frame1 .out0 .bin) .encode everything

theorem inv_encoding : Inv encoding := inv_busyWith _ _ (by decide) (by decide) (by decide) (by decide)

/-- The block after it. -/
def encoded : State := (phEncode .frame1 .out0 .bin encoding).finish .none

theorem witness_DecodeOfEncodeIsTheImage :
    ∃ (u u' s : State) (src : Src) (dst : Dst) (fmt : Fmt), Inv u ∧ executes u .encode ∧ u.sourceValid src = true ∧
      (∀ k, k < u.sampleCount → (u.image src k).toNat ≤ u.maxval.toNat) ∧ exec (.encode src dst fmt) u = .next u' ∧
      s.params = u.params ∧ executes s .decode ∧
      s.inLen = (match dst with | .out0 => u'.out0Len | .out1 => u'.out1Len) ∧
      (∀ k, k < s.inLen.toNat → Cells.read s.mem.inp k = Cells.read (u'.mem.bytes (dstSpace dst)) k) :=
  ⟨encoding, encoded,
    busyWith .decode .decode
      { State.resetOf small with inLen := encoded.out0Len, mem := { Memory.unspecified with inp := encoded.mem.out0 } },
    .frame1, .out0, .bin, inv_encoding, ⟨rfl, rfl⟩, rfl, by decide, rfl, rfl, ⟨rfl, rfl⟩, rfl, fun _ _ => rfl⟩

/-- `GRAD` of `everything` has the sample 255 above `MAXVAL` 9. -/
theorem witness_StreamAboveMaxvalIsRejected :
    ∃ (u s : State) (src : Src) (fmt : Fmt), Inv u ∧ u.status.vFrame1 = true ∧
      (∃ k, k < u.sampleCount ∧ u.maxval.toNat < (u.image src k).toNat) ∧
      s.params = u.params ∧ executes s .decode ∧ s.stream = u.encoded src fmt :=
  ⟨everything, decoding [0x50, 0x35, 0x0A, 0x32, 0x20, 0x31, 0x0A, 0x39, 0x0A, 0x00, 0xFF], .grad, .bin, inv_everything [],
    rfl, ⟨1, by decide, by decide⟩, rfl, ⟨rfl, rfl⟩, by decide +kernel⟩

/-- Both clauses: a graymap stream, and the empty stream. -/
theorem witness_ProcessEqualsTheFiveCommands :
    (∃ s : State, paramsWf s.params ∧ s.status.state ≠ .busy ∧ s.script = [] ∧
      ∃ img, graymapStream s.params img s.tick.stream) ∧
    (∃ s : State, paramsWf s.params ∧ s.status.state ≠ .busy ∧ s.script = [] ∧
      ∀ img, ¬ graymapStream s.params img s.tick.stream) := by
  refine ⟨⟨loaded streamB14, test_params_wf_small, by decide, rfl, onePixel .bin, ?_⟩, loaded [], test_params_wf_small,
    by decide, rfl, fun img h => ?_⟩
  · rw [show (loaded streamB14).tick.stream = bytesOf streamB14 by decide]
    exact graymapStream_B14
  · obtain ⟨_, _, _, _, _, area, h, _⟩ := h
    have := length_of_headedStream h
    rw [show (loaded []).tick.stream = [] by decide] at this
    simp at this

theorem witness_ProcessRunsToDone :
    ∃ (s : State) (fmt : Fmt) (img : DecodedImage), paramsWf s.params ∧ s.status.state ≠ .busy ∧
      s.script = cmdTurns (.process fmt) ∧ graymapStream s.params img s.tick.stream := by
  refine ⟨{ loaded streamText with script := cmdTurns (.process .bin) }, .bin, onePixel .text, test_params_wf_small,
    by decide, rfl, ?_⟩
  rw [show ({ loaded streamText with script := cmdTurns (.process .bin) } : State).tick.stream = bytesOf streamText by
    decide]
  exact graymapStream_text

/-! ## Witnesses: host accesses and reset -/

/-- The last register that may be read while `BUSY`, and every register while not. -/
theorem witness_RegisterReadsReturnTheirValue :
    (∃ (s : State) (k : Nat) (rest : List Turn), k < 10 ∧ s.script = .host (.readReg k) :: rest ∧
      s.status.state = .busy ∧ k < 4 ∧ k = 3) ∧
    ∀ k, k < 10 → ∃ (s : State) (rest : List Turn), s.script = .host (.readReg k) :: rest ∧
      (s.status.state = .busy → k < 4) :=
  ⟨⟨{ decoding [] with script := [.host (.readReg 3)] }, 3, [], by decide, rfl, rfl, by decide, rfl⟩,
    fun k _ => ⟨{ everything with script := [.host (.readReg k)] }, [], rfl, by simp [everything]⟩⟩

/-- The last register, and one while `BUSY`. -/
theorem witness_UnusedRegisterBitsReadZero :
    (∃ (s : State) (k : Nat) (rest : List Turn), k < 10 ∧ s.script = .host (.readReg k) :: rest) ∧
      ∃ (s : State) (k : Nat) (rest : List Turn), k < 10 ∧ s.script = .host (.readReg k) :: rest ∧
        s.status.state = .busy :=
  ⟨⟨{ everything with script := [.host (.readReg 9)] }, 9, [], by decide, rfl⟩,
    { decoding [] with script := [.host (.readReg 7)] }, 7, [], by decide, rfl, rfl⟩

/-- A value above `MAX_IN_BYTES`. -/
theorem witness_InLenWriteSaturates :
    ∃ (s : State) (v : Word) (rest : List Turn), s.status.state ≠ .busy ∧ s.script = .host (.writeReg 3 v) :: rest ∧
      s.params.maxInBytes < v.toNat :=
  ⟨{ everything with script := [.host (.writeReg 3 65#32)] }, 65#32, [], by decide, rfl, by decide⟩

/-- The last element of `IN`. -/
theorem witness_InputByteReadsBack :
    ∃ (s : State) (k : Nat) (v : Byte) (rest : List Turn), s.status.state ≠ .busy ∧ k < s.params.maxInBytes ∧
      s.script = .host (.writeByte .inp k v) :: .host (.readByte .inp k) :: rest :=
  ⟨{ everything with script := [.host (.writeByte .inp 63 0x41#8), .host (.readByte .inp 63)] }, 63, 0x41#8, [],
    by decide, by decide, rfl⟩

/-- The last defined element of every buffer. -/
theorem witness_DefinedElementsReadBack (sp : ByteSpace) (k : Nat)
    (h : (sp, k) ∈ [(ByteSpace.frame1, 1), (.filt, 1), (.grad, 1), (.out0, 0), (.out1, 1)]) :
    ∃ (s : State) (rest : List Turn), Inv s ∧ s.status.state ≠ .busy ∧ s.script = .host (.readByte sp k) :: rest ∧
      ((sp = .frame1 ∧ s.status.vFrame1 = true ∧ k < s.sampleCount) ∨
        (sp = .filt ∧ s.status.vFilt = true ∧ k < s.sampleCount) ∨
        (sp = .grad ∧ s.status.vGrad = true ∧ k < s.sampleCount) ∨
        (sp = .out0 ∧ s.status.vOut0 = true ∧ k < s.out0Len.toNat) ∨
        (sp = .out1 ∧ s.status.vOut1 = true ∧ k < s.out1Len.toNat)) := by
  refine ⟨{ everything with script := [.host (.readByte sp k)] }, [], inv_everything _,
    (by decide : everything.status.state ≠ .busy), rfl, ?_⟩
  simp only [List.mem_cons, List.not_mem_nil, or_false, Prod.mk.injEq] at h
  rcases h with ⟨rfl, rfl⟩ | ⟨rfl, rfl⟩ | ⟨rfl, rfl⟩ | ⟨rfl, rfl⟩ | ⟨rfl, rfl⟩ <;> decide

/-- The last defined element of `CONV`. -/
theorem witness_DefinedElementsReadBack_conv :
    ∃ (s : State) (k : Nat) (rest : List Turn), Inv s ∧ s.status.state ≠ .busy ∧ s.script = .host (.readConv k) :: rest ∧
      s.status.vConv = true ∧ k < s.sampleCount :=
  ⟨{ everything with script := [.host (.readConv 1)] }, 1, [], inv_everything _,
    (by decide : everything.status.state ≠ .busy), rfl, rfl, by decide⟩

/-- A result register while `BUSY`; elements of a byte buffer and of `CONV` outside the defined extent, the last ones. -/
theorem witness_HostReadsHaveNoSideEffect :
    (∃ (s : State) (a : HostAct) (rest : List Turn), a.isWrite = false ∧ locationExists s.params a = true ∧
      s.script = .host a :: rest ∧ s.status.state = .busy ∧ a = .readReg 9) ∧
    (∃ (s : State) (a : HostAct) (rest : List Turn), a.isWrite = false ∧ locationExists s.params a = true ∧
      s.script = .host a :: rest ∧ a = .readByte .out1 132 ∧ s.definedExtent .out1 ≤ 132) ∧
    (∃ (s : State) (a : HostAct) (rest : List Turn), a.isWrite = false ∧ locationExists s.params a = true ∧
      s.script = .host a :: rest ∧ a = .readConv 29 ∧ s.convExtent ≤ 29) :=
  ⟨⟨{ encoding with script := [.host (.readReg 9)] }, _, [], rfl, rfl, rfl, rfl, rfl⟩,
    ⟨{ everything with script := [.host (.readByte .out1 132)] }, _, [], rfl, rfl, rfl, rfl, by decide⟩,
    { everything with script := [.host (.readConv 29)] }, _, [], rfl, rfl, rfl, rfl, by decide⟩

theorem witness_BusyDropsHostWrites :
    ∃ (s : State) (a : HostAct) (rest : List Turn), s.status.state = .busy ∧ a.isWrite = true ∧
      locationExists s.params a = true ∧ s.script = .host a :: rest :=
  ⟨{ decoding [] with script := [.host (.writeReg 0 0)] }, .writeReg 0 0, [], rfl, rfl, rfl, rfl⟩

/-- Each of the three kinds, at the end of its range. -/
theorem witness_ReadOnlyLocationsIgnoreWrites :
    (∃ (s : State) (rest : List Turn) (k : Nat) (v : Word), locationExists s.params (.writeReg k v) = true ∧ k ≠ 0 ∧
      k ≠ 3 ∧ s.script = .host (.writeReg k v) :: rest) ∧
    (∃ (s : State) (rest : List Turn) (sp : ByteSpace) (k : Nat) (v : Byte),
      locationExists s.params (.writeByte sp k v) = true ∧ sp ≠ .inp ∧ s.script = .host (.writeByte sp k v) :: rest) ∧
    (∃ (s : State) (rest : List Turn) (k : Nat) (v : Word), locationExists s.params (.writeConv k v) = true ∧
      s.script = .host (.writeConv k v) :: rest) :=
  ⟨⟨{ everything with script := [.host (.writeReg 9 1)] }, [], 9, 1, rfl, by decide, by decide, rfl⟩,
    ⟨{ everything with script := [.host (.writeByte .out1 132 1)] }, [], .out1, 132, 1, rfl, by decide, rfl⟩,
    { everything with script := [.host (.writeConv 29 1)] }, [], 29, 1, rfl, rfl⟩

theorem witness_ResetFromEveryState :
    ∃ (s : State) (rest : List Turn), s.script = .reset :: rest ∧ s.status.state = .busy :=
  ⟨{ decoding [] with script := [.reset] }, [], rfl, rfl⟩

/-! ## Witnesses: whole-machine rules -/

/-- A step of a `BUSY` block that meets the invariant. -/
theorem witness_EveryStepKeepsTheInvariant : ∃ s t : State, Inv s ∧ step s = .next t ∧ s.status ≠ t.status :=
  ⟨encoding, encoded.tick, inv_encoding, rfl, by decide⟩

theorem witness_GoodStatesNeverFault : ∃ s : State, Inv s ∧ s.status.state = .busy := ⟨encoding, inv_encoding, rfl⟩

theorem witness_EveryCommandEnds : ∃ s : State, Inv s ∧ s.status.state = .busy ∧ s.script = [] :=
  ⟨encoding, inv_encoding, rfl, rfl⟩

/-- The block's step in its three outcomes, a host access while `BUSY`, and reset. -/
theorem witness_StateTransitionsAreTheListed_busy :
    (∃ s t : State, step s = .next t ∧ resets s) ∧
    (∃ s t : State, step s = .next t ∧ blockMoves s ∧ t.status.state = .error) ∧
    (∃ s t : State, step s = .next t ∧ blockMoves s ∧ t.status.state = .done) ∧
    (∃ s t : State, step s = .next t ∧ blockMoves s ∧ t.status.state = .busy) ∧
    (∃ s t : State, step s = .next t ∧ ¬ resets s ∧ s.status.state = .busy ∧ ¬ blockMoves s) :=
  ⟨⟨{ encoding with script := [.reset] }, _, rfl, [], rfl⟩,
    ⟨decoding [], _, rfl, ⟨rfl, .inl rfl⟩, by decide +kernel⟩,
    ⟨{ encoding with script := [.poll] }, _, rfl, ⟨rfl, .inr (.inr ⟨[], rfl⟩)⟩, rfl⟩,
    ⟨{ busyWith (.process .bin) .encode everything with script := [.block] }, _, rfl, ⟨rfl, .inr (.inl ⟨[], rfl⟩)⟩, rfl⟩,
    { encoding with script := [.host (.writeReg 0 0)] }, _, rfl, by simp [resets], rfl, by simp [blockMoves]⟩

/-- The host's write of `CLEAR`, of a ready command, of an illegal word, of a command whose source is not valid. -/
theorem witness_StateTransitionsAreTheListed (c : Word) (hc : c ∈ [0x0#32, 0x1#32, 0x7#32, 0x13#32]) :
    ∃ s t : State, step s = .next t ∧ ¬ resets s ∧ s.status.state ≠ .busy ∧ writesCommand s c ∧
      t.status.state ≠ s.status.state := by
  simp only [List.mem_cons, List.not_mem_nil, or_false] at hc
  rcases hc with rfl | rfl | rfl | rfl
  · exact ⟨{ holding 1 255 [7] with script := [.host (.writeReg 0 0x0#32)] }, _, rfl, by simp [resets], by decide,
      ⟨by decide, [], rfl⟩, by decide +kernel⟩
  · exact ⟨{ holding 1 255 [7] with script := [.host (.writeReg 0 0x1#32)] }, _, rfl, by simp [resets], by decide,
      ⟨by decide, [], rfl⟩, by decide +kernel⟩
  · exact ⟨{ holding 1 255 [7] with script := [.host (.writeReg 0 0x7#32)] }, _, rfl, by simp [resets], by decide,
      ⟨by decide, [], rfl⟩, by decide +kernel⟩
  · exact ⟨{ holding 1 255 [7] with script := [.host (.writeReg 0 0x13#32)] }, _, rfl, by simp [resets], by decide,
      ⟨by decide, [], rfl⟩, by decide +kernel⟩

/-- A block with nothing in the script is not reset. -/
theorem not_resets {s : State} (h : s.script = []) : ¬ resets s := by simp [resets, h]

/-- The host's write for `EachBufferHasItsOwnWriter`. -/
theorem witness_EachBufferHasItsOwnWriter_inp :
    ∃ s t : State, step s = .next t ∧ ¬ resets s ∧ t.mem.inp ≠ s.mem.inp :=
  ⟨{ everything with script := [.host (.writeByte .inp 0 1)] }, _, rfl, by simp [resets], by decide⟩

/-- Every other clause of `EachBufferHasItsOwnWriter` and the first six of `ValidBitsChangeOnlyAsListed`: a step that
writes the buffer and sets its valid bit. -/
theorem witness_EachBufferHasItsOwnWriter :
    (∃ s t : State, step s = .next t ∧ ¬ resets s ∧ t.mem.frame1 ≠ s.mem.frame1 ∧ s.status.vFrame1 = false ∧
      t.status.vFrame1 = true) ∧
    (∃ s t : State, step s = .next t ∧ ¬ resets s ∧ t.mem.filt ≠ s.mem.filt ∧ s.status.vFilt = false ∧
      t.status.vFilt = true) ∧
    (∃ s t : State, step s = .next t ∧ ¬ resets s ∧ t.mem.grad ≠ s.mem.grad ∧ s.status.vGrad = false ∧
      t.status.vGrad = true) ∧
    (∃ s t : State, step s = .next t ∧ ¬ resets s ∧ t.mem.conv ≠ s.mem.conv ∧ s.status.vConv = false ∧
      t.status.vConv = true) ∧
    (∃ s t : State, step s = .next t ∧ ¬ resets s ∧ t.mem.out0 ≠ s.mem.out0 ∧ s.status.vOut0 = false ∧
      t.status.vOut0 = true) ∧
    (∃ s t : State, step s = .next t ∧ ¬ resets s ∧ t.mem.out1 ≠ s.mem.out1 ∧ s.status.vOut1 = false ∧
      t.status.vOut1 = true) :=
  ⟨⟨decoding streamB14, _, rfl, not_resets rfl, by decide +kernel, rfl, by decide +kernel⟩,
    ⟨busyWith .blur .blur (holding 1 255 [255]), _, rfl, not_resets rfl, by decide +kernel, rfl, rfl⟩,
    ⟨busyWith (.sobel .frame1) .sobel (holding 1 255 [255]), _, rfl, not_resets rfl, by decide +kernel, rfl, rfl⟩,
    ⟨busyWith (.convolve .frame1 .gauss5) .convolve (holding 1 255 [255]), _, rfl, not_resets rfl, by decide +kernel, rfl,
      rfl⟩,
    ⟨busyWith (.encode .frame1 .out0 .bin) .encode (holding 1 255 [255]), _, rfl, not_resets rfl, by decide +kernel, rfl,
      rfl⟩,
    busyWith (.encode .frame1 .out1 .bin) .encode (holding 1 255 [255]), _, rfl, not_resets rfl, by decide +kernel, rfl,
      rfl⟩

/-- The last clause of `ValidBitsChangeOnlyAsListed`. -/
theorem witness_ValidBitsChangeOnlyAsListed :
    ∃ s t : State, step s = .next t ∧ ¬ resets s ∧ ¬ performs s .decode ∧ ¬ writesCommand s 0 ∧
      s.status.vOut1 = true :=
  ⟨encoding, _, rfl, not_resets rfl, by simp [performs, encoding, busyWith], by simp [writesCommand, encoding, busyWith],
    rfl⟩

/-- A write of `CLEAR` changes `CMD`, the header and the output lengths; a decode that fails changes `ERR`; a write to
`IN_LEN` changes it. -/
theorem witness_RegistersChangeOnlyAsListed :
    (∃ s t : State, step s = .next t ∧ ¬ resets s ∧ t.cmd ≠ s.cmd ∧ ¬ sameHeader s t ∧ t.out0Len ≠ s.out0Len ∧
      t.out1Len ≠ s.out1Len) ∧
    (∃ s t : State, step s = .next t ∧ ¬ resets s ∧ t.err ≠ s.err) ∧
    (∃ s t : State, step s = .next t ∧ ¬ resets s ∧ t.inLen ≠ s.inLen) :=
  ⟨⟨{ everything with cmd := 1, script := [.host (.writeReg 0 0)] },
      ({ everything with cmd := 0, script := [] } : State).release, rfl, by simp [resets], by decide,
      by unfold sameHeader; decide, by decide, by decide⟩,
    ⟨decoding [], _, rfl, not_resets rfl, by decide +kernel⟩,
    { everything with script := [.host (.writeReg 3 1)] }, _, rfl, by simp [resets], by decide⟩

theorem witness_ResetStateIsGood : ∃ p : Params, paramsWf p ∧ p ≠ Config.resetParams :=
  ⟨small, test_params_wf_small, by decide⟩

end Sys2Proof.Tests
end

section
/-! PROOF. The length of an encoded stream (spec/41_graymap_encoder.md R171 to R178), counted as
spec/00_scope.md R7 counts it: magic and line feed, the two dimensions, the maximum value, at most 4 bytes per sample. -/

namespace Sys2Proof.Machine

/-! ### Decimal spellings -/

/-- With fuel above the number, one digit per power of ten. -/
theorem decDigits_length (fuel n : Nat) (h : n < fuel) : (decDigits fuel n).length = Nat.log 10 n + 1 := by
  induction fuel generalizing n with
  | zero => omega
  | succ fuel ih =>
    rw [decDigits]
    by_cases hn : n < 10
    · simp [Nat.div_eq_of_lt hn, Nat.log_of_lt hn]
    · have hdiv : n / 10 ≠ 0 := by omega
      have hfuel : n / 10 < fuel := by omega
      have hlog : Nat.log 10 n = Nat.log 10 (n / 10) + 1 := Nat.log_of_one_lt_of_le (by omega) (by omega)
      rw [if_neg hdiv, List.length_append, ih _ hfuel, List.length_singleton, hlog]

theorem dec_length (n : Nat) : (dec n).length = Nat.log 10 n + 1 := decDigits_length (n + 1) n n.lt_succ_self

theorem dec_length_mono {m n : Nat} (h : m ≤ n) : (dec m).length ≤ (dec n).length := by
  simpa [dec_length] using Nat.log_mono_right h

/-- A sample or a maximum value takes at most three digits. -/
theorem dec_byte_length_le (b : Byte) : (dec b.toNat).length ≤ 3 :=
  calc (dec b.toNat).length ≤ (dec 255).length := dec_length_mono (by omega)
    _ = 3 := by decide

/-! ### The two parts of a stream -/

@[simp] theorem magicBytes_length (p : Params) (fmt : Fmt) : (magicBytes p fmt).length = 2 := by
  cases fmt <;> rfl

theorem streamHeader_length (p : Params) (fmt : Fmt) (w h m : Nat) :
    (streamHeader p fmt w h m).length = 3 + ((dec w).length + (dec h).length + 2) + ((dec m).length + 1) := by
  simp [streamHeader]
  omega

/-- The elements of an image are those at its positions. -/
theorem mem_rowMajor {α : Type} {w h : Nat} {f : Nat → Nat → α} {x : α} :
    x ∈ rowMajor w h f ↔ ∃ row < h, ∃ col < w, f row col = x := by
  simp [rowMajor]

/-- Four bytes per sample: three digits and a separator in the text variant, fewer in the binary one. -/
theorem streamBody_length_le (fmt : Fmt) (img : Nat → Byte) (w h : Nat) :
    (streamBody fmt img w h).length ≤ 4 * (w * h) := by
  cases fmt with
  | bin =>
    rw [streamBody, rowMajor_length]
    omega
  | text =>
    rw [streamBody, List.length_flatten]
    set samples := rowMajor w h fun row col => dec (img (row * w + col)).toNat ++ [separator w col] with hsamples
    have hsample : ∀ n ∈ samples.map List.length, n ≤ 4 := by
      refine List.forall_mem_map.2 fun x hx => ?_
      obtain ⟨row, -, col, -, rfl⟩ := mem_rowMajor.1 hx
      rw [List.length_append, List.length_singleton]
      exact Nat.succ_le_succ (dec_byte_length_le _)
    calc (samples.map List.length).sum ≤ (samples.map List.length).length • 4 := List.sum_le_card_nsmul _ 4 hsample
      _ = 4 * (w * h) := by simp [hsamples, mul_comm]

/-! ### The whole stream -/

/-- The bound of R7, for an image of at most `maxPixels` samples and at least one row and one column. -/
theorem encodeStream_length_le_outBound (p : Params) (fmt : Fmt) (img : Nat → Byte) {w h maxPixels : Nat} (m : Byte)
    (hw : 1 ≤ w) (hh : 1 ≤ h) (hsize : w * h ≤ maxPixels) :
    (encodeStream p fmt img w h m.toNat).length ≤ outBound maxPixels := by
  have hwidth : (dec w).length ≤ ndigits maxPixels := dec_length_mono ((Nat.le_mul_of_pos_right w hh).trans hsize)
  have hheight : (dec h).length ≤ ndigits maxPixels := dec_length_mono ((Nat.le_mul_of_pos_left h hw).trans hsize)
  have hmaxval := dec_byte_length_le m
  have hbody := streamBody_length_le fmt img w h
  rw [encodeStream, List.length_append, streamHeader_length, outBound]
  omega

/-- Settles O37: the invariant bounds the image's size, and the instance's `MAX_OUT_BYTES` is at least R7's bound. -/
theorem encodeNeverOverflows : Obligations.EncodeNeverOverflows := by
  intro s src fmt hinv himage
  obtain ⟨hwidth, hheight, hsize, -⟩ := hinv.image himage
  obtain ⟨-, -, -, -, hbound, -⟩ := hinv.params
  exact (encodeStream_length_le_outBound s.params fmt (s.image src) s.maxval hwidth hheight hsize).trans hbound

end Sys2Proof.Machine
end

section
/-! PROOF. The words that select a command (spec/30_encoding.md R97 to R99), and the phases of a command as the
sequencer finds them (spec/45_pipeline_control.md R255). -/

namespace Sys2Proof.Machine

/-! ### Command words -/

theorem unused_eq_ok_iff {w : Nat} {f : BitVec w} {e : DecodeError} {u : Unit} : unused f e = .ok u ↔ f = 0 := by
  unfold unused
  split <;> simp_all

theorem except_bind_eq_ok_iff {ε α β : Type} {x : Except ε α} {f : α → Except ε β} {b : β} :
    (x >>= f) = .ok b ↔ ∃ a, x = .ok a ∧ f a = .ok b := by
  cases x <;> simp [bind, Except.bind]

/-- A row of R97 that uses no field selects its own command, and only when every field is 0. -/
theorem noOperand_eq_ok {c : Word} {i j : Instr} (h : noOperand c i = .ok j) :
    j = i ∧ srcField c = 0 ∧ kField c = 0 ∧ binField c = 0 ∧ dstField c = 0 := by
  simp only [noOperand, except_bind_eq_ok_iff, unused_eq_ok_iff, pure, Except.pure, Except.ok.injEq] at h
  obtain ⟨-, hsrc, -, hk, -, hbin, -, hdst, hji⟩ := h
  exact ⟨hji.symm, hsrc, hk, hbin, hdst⟩

/-- A word is 0 if its six fields are (R90: they cover it). -/
theorem eq_zero_of_fields {c : Word} (hop : opField c = 0) (hsrc : srcField c = 0) (hk : kField c = 0)
    (hbin : binField c = 0) (hdst : dstField c = 0) (hzero : zeroField c = 0) : c = 0 := by
  have hc := c.isLt
  simp only [opField, srcField, kField, binField, dstField, zeroField, ← BitVec.toNat_inj, BitVec.extractLsb'_toNat,
    Nat.shiftRight_eq_div_pow] at *
  simp at *
  omega

/-- A word that selects a command has no reserved bit set, and its `OP` selects the row (R99). -/
theorem decodeOp_of_decode {c : Word} {i : Instr} (h : decode c = .ok i) : zeroField c = 0 ∧ decodeOp c = .ok i := by
  unfold decode at h
  split at h
  · next hz => exact ⟨hz, h⟩
  · cases h

theorem decodeSobel_eq_ok {c : Word} {i : Instr} (h : decodeSobel c = .ok i) :
    i = .sobel .frame1 ∨ i = .sobel .filt := by
  simp only [decodeSobel, except_bind_eq_ok_iff, pure, Except.pure, Except.ok.injEq] at h
  obtain ⟨src, hsrc, -, -, -, -, -, -, rfl⟩ := h
  unfold sobelOperand at hsrc
  split at hsrc
  · exact .inl (by cases hsrc; rfl)
  · exact .inr (by cases hsrc; rfl)
  · cases hsrc

theorem decodeEncode_eq_ok {c : Word} {i : Instr} (h : decodeEncode c = .ok i) :
    ∃ src dst fmt, i = .encode src dst fmt := by
  simp only [decodeEncode, except_bind_eq_ok_iff, pure, Except.pure, Except.ok.injEq] at h
  obtain ⟨src, -, -, -, rfl⟩ := h
  exact ⟨_, _, _, rfl⟩

theorem decodeConvolve_eq_ok {c : Word} {i : Instr} (h : decodeConvolve c = .ok i) : ∃ src k, i = .convolve src k := by
  simp only [decodeConvolve, except_bind_eq_ok_iff, pure, Except.pure, Except.ok.injEq] at h
  obtain ⟨src, -, k, -, -, -, -, -, rfl⟩ := h
  exact ⟨_, _, rfl⟩

theorem decodeProcess_eq_ok {c : Word} {i : Instr} (h : decodeProcess c = .ok i) : ∃ fmt, i = .process fmt := by
  simp only [decodeProcess, except_bind_eq_ok_iff, pure, Except.pure, Except.ok.injEq] at h
  obtain ⟨-, -, -, -, -, -, rfl⟩ := h
  exact ⟨_, rfl⟩

/-- The decoder answers commands of the block only: never `SOBEL GRAD` (R97), and `CLEAR` for the word 0 only. -/
theorem decode_eq_ok {c : Word} {i : Instr} (h : decode c = .ok i) : i.wf = true ∧ (i = .clear → c = 0) := by
  obtain ⟨hzero, hop⟩ := decodeOp_of_decode h
  unfold decodeOp at hop
  split at hop
  case h_1 hcode =>
    obtain ⟨rfl, hsrc, hk, hbin, hdst⟩ := noOperand_eq_ok hop
    exact ⟨rfl, fun _ => eq_zero_of_fields (BitVec.eq_of_toNat_eq hcode) hsrc hk hbin hdst hzero⟩
  case h_2 | h_3 =>
    obtain ⟨rfl, -⟩ := noOperand_eq_ok hop
    simp [Instr.wf]
  case h_4 => rcases decodeSobel_eq_ok hop with rfl | rfl <;> simp [Instr.wf]
  case h_5 =>
    obtain ⟨src, dst, fmt, rfl⟩ := decodeEncode_eq_ok hop
    simp [Instr.wf]
  case h_6 =>
    obtain ⟨src, k, rfl⟩ := decodeConvolve_eq_ok hop
    simp [Instr.wf]
  case h_7 =>
    obtain ⟨fmt, rfl⟩ := decodeProcess_eq_ok hop
    simp [Instr.wf]
  case h_8 => cases hop

theorem wf_of_decode {c : Word} {i : Instr} (h : decode c = .ok i) : i.wf = true := (decode_eq_ok h).1

theorem eq_zero_of_decode_clear {c : Word} (h : decode c = .ok .clear) : c = 0 := (decode_eq_ok h).2 rfl

/-! ### The phases of a command -/

/-- No two phases of a command have the same number: `PHASE` says where the command is. -/
theorem phasesOf_nodup (i : Instr) : ((phasesOf i).map PhaseOp.phase).Nodup := by
  cases i <;> simp [phasesOf, PhaseOp.phase]

theorem PhaseOp.phase_ne_none (op : PhaseOp) : op.phase ≠ .none := by
  cases op <;> simp [PhaseOp.phase]

theorem firstPhase_eq_none_iff (plan : List PhaseOp) : firstPhase plan = .none ↔ plan = [] := by
  cases plan <;> simp [firstPhase, PhaseOp.phase_ne_none]

/-- The phase `PHASE` names is the first of those still to come. -/
theorem phaseNamed_eq_head? (plan : List PhaseOp) (p : Phase) : phaseNamed plan p = (phasesFrom plan p).head? := by
  induction plan with
  | nil => rfl
  | cons a plan ih =>
    simp only [phaseNamed, phasesFrom]
    split <;> simp [ih]

/-- What is to come from a phase on begins with the phase and goes on with its successor (R255). -/
theorem phasesFrom_eq_cons {plan : List PhaseOp} {p : Phase} {op : PhaseOp} {rest : List PhaseOp}
    (h : phasesFrom plan p = op :: rest) : op.phase = p ∧ nextPhase plan p = firstPhase rest ∧ op :: rest <:+ plan := by
  induction plan with
  | nil => simp [phasesFrom] at h
  | cons a plan ih =>
    simp only [phasesFrom] at h
    split at h
    · next ha =>
      cases h
      exact ⟨ha, by simp [nextPhase, ha], List.suffix_rfl⟩
    · next ha =>
      obtain ⟨hp, hnext, hsuffix⟩ := ih h
      exact ⟨hp, by simp [nextPhase, ha, hnext], hsuffix.trans (List.suffix_cons a plan)⟩

theorem phasesFrom_firstPhase (plan : List PhaseOp) : phasesFrom plan (firstPhase plan) = plan := by
  cases plan <;> simp [firstPhase, phasesFrom]

/-- After a completed phase, what is to come is what was to come after it. -/
theorem phasesFrom_next {plan : List PhaseOp} {p : Phase} {op : PhaseOp} {rest : List PhaseOp}
    (hnodup : (plan.map PhaseOp.phase).Nodup) (h : phasesFrom plan p = op :: rest) :
    phasesFrom plan (firstPhase rest) = rest := by
  induction plan with
  | nil => simp [phasesFrom] at h
  | cons a plan ih =>
    simp only [List.map_cons, List.nodup_cons, List.mem_map, not_exists, not_and] at hnodup
    obtain ⟨hfresh, hnodup⟩ := hnodup
    have hsub : rest ⊆ plan ∧ phasesFrom plan (firstPhase rest) = rest := by
      simp only [phasesFrom] at h
      split at h
      · cases h
        exact ⟨List.Subset.refl _, phasesFrom_firstPhase _⟩
      · obtain ⟨-, -, hsuffix⟩ := phasesFrom_eq_cons h
        exact ⟨((List.suffix_cons op rest).trans hsuffix).subset, ih hnodup h⟩
    obtain ⟨hsub, hrest⟩ := hsub
    have ha : a.phase ≠ firstPhase rest := by
      cases rest with
      | nil => exact a.phase_ne_none
      | cons b rest => exact fun hab => hfresh b (hsub (by simp)) hab.symm
    rw [phasesFrom, if_neg ha, hrest]

/-- Every phase of a command but those of `PROCESS` is its only one. -/
theorem phasesFrom_of_not_process {i : Instr} {p : Phase} {op : PhaseOp} {rest : List PhaseOp}
    (hi : ∀ fmt, i ≠ .process fmt) (h : phasesFrom (phasesOf i) p = op :: rest) : rest = [] := by
  obtain ⟨-, -, hsuffix⟩ := phasesFrom_eq_cons h
  have hlen := hsuffix.length_le
  cases i <;> simp_all [phasesOf]

/-- The phases of `PROCESS` with their successors (R255). -/
theorem phasesFrom_process {fmt : Fmt} {p : Phase} {op : PhaseOp} {rest : List PhaseOp}
    (h : phasesFrom (phasesOf (.process fmt)) p = op :: rest) :
    (p, firstPhase rest) ∈
      [(Phase.decode, Phase.blur), (.blur, .sobel), (.sobel, .encode), (.encode, .encode2), (.encode2, .none)] := by
  cases p <;> simp_all [phasesOf, phasesFrom, PhaseOp.phase] <;> simp [← h.2, firstPhase, PhaseOp.phase]

end Sys2Proof.Machine
end

section
/-! PROOF. What can happen at a step, said once for the whole machine (spec/00_scope.md R10, spec/45_pipeline_control.md
R250 to R257, spec/20_memory.md R65). The statements about all steps are read off its cases. -/

namespace Sys2Proof.Machine

/-- The next states of `s`, by what happens at the step. `script`, `d`, `r` are what the model's own fields become. -/
inductive Event (s : State) : State → Prop where
  /-- The reset input acts. -/
  | reset (rest : List Turn) (hscript : s.script = .reset :: rest) :
      Event s ({ s with script := rest } : State).resetEvent
  /-- The block completes the phase `op`, and `later` is still to come. -/
  | completed (script : List Turn) (i : Instr) (op : PhaseOp) (later : List PhaseOp) (u : State)
      (hmoves : blockMoves s) (hdecode : decode s.cmd = .ok i)
      (hphases : phasesFrom (phasesOf i) s.status.phase = op :: later)
      (hrun : runPhase op ({ s with script := script } : State).tick = .completed u) :
      Event s (u.finish (firstPhase later))
  /-- The block fails in `PH_DECODE`. -/
  | failed (script : List Turn) (e : ErrCode) (hmoves : blockMoves s) (hphase : s.status.phase = .decode)
      (hstream : decodeStream s.params ({ s with script := script } : State).tick.stream = .error e) :
      Event s ((({ s with script := script } : State).tick.clearRun.replaceBytes .frame1 []).raise e)
  /-- The host's access changes nothing of the block, or the block waits. -/
  | quiet (script : List Turn) (r : ReadData) (d : Nat) (hreset : ¬ resets s) (hmoves : ¬ blockMoves s) :
      Event s { s with script := script, readData := r, draws := d }
  /-- The host writes `IN_LEN`. -/
  | inLen (v : Word) (rest : List Turn) (hbusy : s.status.state ≠ .busy)
      (hscript : s.script = .host (.writeReg 3 v) :: rest) :
      Event s { s with script := rest, inLen := saturate s.params v }
  /-- The host writes an element of `IN`. -/
  | inp (k : Nat) (v : Byte) (rest : List Turn) (hbusy : s.status.state ≠ .busy) (hk : k < s.params.maxInBytes)
      (hscript : s.script = .host (.writeByte .inp k v) :: rest) :
      Event s { s with script := rest, mem := { s.mem with inp := Cells.write s.mem.inp k v } }
  /-- The host writes `CLEAR` to `CMD`. -/
  | clear (rest : List Turn) (hbusy : s.status.state ≠ .busy) (hscript : s.script = .host (.writeReg 0 0) :: rest) :
      Event s ({ s with script := rest, cmd := 0 } : State).release
  /-- The host writes a command to `CMD` whose source holds an image. -/
  | start (c : Word) (i : Instr) (rest : List Turn) (hbusy : s.status.state ≠ .busy)
      (hscript : s.script = .host (.writeReg 0 c) :: rest) (hdecode : decode c = .ok i) (hclear : i ≠ .clear)
      (hready : s.sourceReady (sourceOf i) = true) :
      Event s (({ s with script := rest, cmd := c } : State).start (firstPhase (phasesOf i)))
  /-- The host writes a word to `CMD` that is not accepted. -/
  | reject (c : Word) (e : ErrCode) (rest : List Turn) (hbusy : s.status.state ≠ .busy)
      (hscript : s.script = .host (.writeReg 0 c) :: rest)
      (hwhy : (e = .illegalCommand ∧ ∃ e', decode c = .error e') ∨
        (e = .sourceInvalid ∧ ∃ i, decode c = .ok i ∧ s.sourceReady (sourceOf i) = false)) :
      Event s (({ s with script := rest, cmd := c } : State).raise e)

/-! ### The block's step -/

/-- A block step that answers a next state executed the first of the phases to come. -/
theorem blockPhase_next_phasesFrom {plan : List PhaseOp} {s t : State} (h : blockPhase plan s = .next t) :
    ∃ op later, phasesFrom plan s.status.phase = op :: later ∧
      ((∃ u, runPhase op s = .completed u ∧ t = u.finish (firstPhase later)) ∨
        (∃ e u, runPhase op s = .failed e u ∧ t = u.raise e)) := by
  unfold blockPhase at h
  cases hphases : phasesFrom plan s.status.phase with
  | nil => simp [phaseNamed_eq_head?, hphases] at h
  | cons op later =>
    obtain ⟨-, hnext, -⟩ := phasesFrom_eq_cons hphases
    refine ⟨op, later, rfl, ?_⟩
    simp only [phaseNamed_eq_head?, hphases, List.head?_cons, hnext] at h
    split at h
    · next u hrun => exact .inl ⟨u, hrun, (Host.Outcome.next.inj h).symm⟩
    · next e u hrun => exact .inr ⟨e, u, hrun, (Host.Outcome.next.inj h).symm⟩

theorem event_of_blockMoves {s t : State} (hmoves : blockMoves s) (h : step s = .next t) : Event s t := by
  obtain ⟨script, hstep⟩ := step_of_blockMoves hmoves
  rcases blockTurn_cases { s with script := script } with ⟨hidle, -⟩ | ⟨-, -, hfault⟩ | ⟨hbusy, i, hdecode, hexec⟩
  · exact absurd hmoves.1 hidle
  · simp [hstep, hfault] at h
  · rw [hstep, hexec, exec_of_busy (s := ({ s with script := script } : State).tick) hbusy,
      if_pos (wf_of_decode hdecode)] at h
    obtain ⟨op, later, hphases, ⟨u, hrun, rfl⟩ | ⟨e, u, hrun, rfl⟩⟩ := blockPhase_next_phasesFrom h
    · exact .completed script i op later u hmoves hdecode hphases hrun
    · obtain ⟨rfl, hstream, rfl⟩ := runPhase_failed hrun
      exact .failed script e hmoves (phasesFrom_eq_cons hphases).1.symm hstream

/-! ### The host's step -/

/-- What a command word does when the block is not `BUSY` (R250 to R254). -/
theorem event_of_command {s t : State} {c : Word} {rest : List Turn} (hbusy : s.status.state ≠ .busy)
    (hscript : s.script = .host (.writeReg 0 c) :: rest)
    (h : hostWriteCmd c { s with script := rest } = .next t) : Event s t := by
  rcases hostWriteCmd_cases c { s with script := rest } with ⟨hb, -⟩ | ⟨-, herror, hraise⟩ | ⟨-, i, hdecode, hexec⟩
  · exact absurd hb hbusy
  · cases hraise.symm.trans h
    exact .reject c .illegalCommand rest hbusy hscript (.inl ⟨rfl, herror⟩)
  · rw [hexec, exec_of_not_busy (s := { s with script := rest, cmd := c }) hbusy, if_pos (wf_of_decode hdecode)] at h
    cases h
    by_cases hclear : i = .clear
    · subst hclear
      obtain rfl := eq_zero_of_decode_clear hdecode
      exact .clear rest hbusy hscript
    · rw [if_neg hclear]
      rcases accept_cases (sourceOf i) (phasesOf i) { s with script := rest, cmd := c } with
        ⟨hready, haccept⟩ | ⟨hready, haccept⟩ <;> rw [haccept]
      · exact .start c i rest hbusy hscript hdecode hclear hready
      · exact .reject c .sourceInvalid rest hbusy hscript (.inr ⟨rfl, i, hdecode, hready⟩)

theorem event_of_access {s t : State} {a : HostAct} {rest : List Turn} (hscript : s.script = .host a :: rest)
    (h : hostAccess a { s with script := rest } = .next t) : Event s t := by
  have hreset : ¬ resets s := by simp [resets, hscript]
  have hmoves : ¬ blockMoves s := not_blockMoves_of_access hscript
  rcases hostAccess_cases a { s with script := rest } with
    ⟨c, rfl, hcmd⟩ | ⟨r, hrefused⟩ | hnone | ⟨v, rfl, hbusy, hlen⟩ | ⟨k, v, rfl, hbusy, hk, hbyte⟩ | ⟨d, -, hread⟩
  · by_cases hbusy : s.status.state = .busy
    · have hignored : hostWriteCmd c { s with script := rest } = .next { s with script := rest } := by
        simp [hostWriteCmd, hbusy]
      cases hignored.symm.trans (hcmd.symm.trans h)
      exact .quiet rest _ _ hreset hmoves
    · exact event_of_command hbusy hscript (hcmd.symm.trans h)
  · cases hrefused.symm.trans h
  · cases hnone.symm.trans h
    exact .quiet rest _ _ hreset hmoves
  · cases hlen.symm.trans h
    exact .inLen v rest hbusy hscript
  · cases hbyte.symm.trans h
    exact .inp k v rest hbusy hk hscript
  · cases hread.symm.trans h
    exact .quiet rest d _ hreset hmoves

/-! ### Every step -/

/-- A block that is not `BUSY` waits (R256). -/
theorem blockTurn_of_not_busy {s : State} (hbusy : s.status.state ≠ .busy) : blockTurn s = .next s := by
  simp [blockTurn, hbusy]

/-- Every step to a next state is one of the events. -/
theorem event_of_step {s t : State} (h : step s = .next t) : Event s t := by
  by_cases hmoves : blockMoves s
  · exact event_of_blockMoves hmoves h
  rcases step_cases s with ⟨hs, hstep⟩ | ⟨a, rest, hs, hstep⟩ | ⟨rest, hs, hstep⟩ | ⟨rest, hs, hbusy, -⟩ |
    ⟨rest, hs, -, hstep⟩ | ⟨rest, hs, hstep⟩
  · rw [hstep] at h
    have hbusy : s.status.state ≠ .busy := fun hb => hmoves ⟨hb, .inl hs⟩
    cases (blockTurn_of_not_busy hbusy).symm.trans h
    exact .quiet s.script _ _ (by simp [resets, hs]) hmoves
  · exact event_of_access hs (hstep.symm.trans h)
  · rw [hstep] at h
    have hbusy : s.status.state ≠ .busy := fun hb => hmoves ⟨hb, .inr (.inl ⟨rest, hs⟩)⟩
    cases (blockTurn_of_not_busy (s := { s with script := rest }) hbusy).symm.trans h
    exact .quiet rest _ _ (by simp [resets, hs]) hmoves
  · exact absurd ⟨hbusy, .inr (.inr ⟨rest, hs⟩)⟩ hmoves
  · cases hstep.symm.trans h
    exact .quiet rest _ _ (by simp [resets, hs]) hmoves
  · cases hstep.symm.trans h
    exact .reset rest hs

end Sys2Proof.Machine
end

section
/-! PROOF. What a step can change of `STATUS` and of the registers, read off the events of a step. -/

namespace Sys2Proof.Machine

/-- At a step of the block, it performs the first of the phases to come. -/
theorem performs_iff_of_phasesFrom {s : State} {plan : List PhaseOp} {op : PhaseOp} {later : List PhaseOp}
    (hmoves : blockMoves s) (hphases : phasesFrom plan s.status.phase = op :: later) (p : Phase) :
    performs s p ↔ op.phase = p := by
  simp [performs, hmoves, (phasesFrom_eq_cons hphases).1]

theorem not_resets_of_blockMoves {s : State} (h : blockMoves s) : ¬ resets s := by
  rintro ⟨rest, hs⟩
  simp [blockMoves, hs] at h

theorem not_resets_of_access {s : State} {a : HostAct} {rest : List Turn} (hs : s.script = .host a :: rest) :
    ¬ resets s := by
  simp [resets, hs]

/-- A completed phase leaves `STATE` and `ERR` to its completion (45 R257). -/
theorem runPhase_completed_frame {op : PhaseOp} {s u : State} (h : runPhase op s = .completed u) :
    u.params = s.params ∧ u.cmd = s.cmd ∧ u.status.state = s.status.state ∧ u.err = s.err := by
  rcases runPhase_completed h with ⟨-, img, -, rfl⟩ | ⟨-, rfl⟩ | ⟨src, -, rfl⟩ | ⟨src, dst, fmt, -, rfl⟩ |
    ⟨src, k, -, rfl⟩
  · simp
  · simp [phBlur]
  · simp [phSobel]
  · simp [phEncode]
  · simp [phConvolve]

/-- `PH_ENCODE2` writes `OUT1` only (45 R255). -/
theorem dst_of_encode2 {i : Instr} {p : Phase} {src : Src} {dst : Dst} {fmt : Fmt} {later : List PhaseOp}
    (h : phasesFrom (phasesOf i) p = .encode2 src dst fmt :: later) : dst = .out1 := by
  obtain ⟨-, -, hsuffix⟩ := phasesFrom_eq_cons h
  have hmem : PhaseOp.encode2 src dst fmt ∈ phasesOf i := hsuffix.subset (by simp)
  cases i <;> simp_all [phasesOf]

/-- Settles O58: only a phase of the block and `CLEAR` touch a valid bit. -/
theorem validBitsChangeOnlyAsListed : Obligations.ValidBitsChangeOnlyAsListed := by
  intro s t h hreset
  cases event_of_step h with
  | reset rest hscript => exact absurd ⟨rest, hscript⟩ hreset
  | completed script i op later u hmoves hdecode hphases hrun =>
    simp only [performs_iff_of_phasesFrom hmoves hphases]
    rcases runPhase_completed hrun with ⟨rfl, img, -, rfl⟩ | ⟨rfl, rfl⟩ | ⟨src, rfl, rfl⟩ |
      ⟨src, dst, fmt, rfl | rfl, rfl⟩ | ⟨src, k, rfl, rfl⟩
    · simp [PhaseOp.phase]
    · simp [phBlur, PhaseOp.phase]
    · simp [phSobel, PhaseOp.phase]
    · cases dst <;> simp [phEncode, PhaseOp.phase]
    · obtain rfl := dst_of_encode2 hphases
      simp [phEncode, PhaseOp.phase]
    · simp [phConvolve, PhaseOp.phase]
  | failed script e hmoves hphase hstream => simp [performs, hmoves, hphase]
  | clear rest hbusy hscript =>
    have hclear : writesCommand s 0#32 := ⟨hbusy, rest, hscript⟩
    simp [hclear]
  | _ => simp +contextual

/-- Settles O59, event by event. -/
theorem registersChangeOnlyAsListed : Obligations.RegistersChangeOnlyAsListed := by
  intro s t h hreset
  cases event_of_step h with
  | reset rest hscript => exact absurd ⟨rest, hscript⟩ hreset
  | completed script i op later u hmoves hdecode hphases hrun =>
    simp only [performs_iff_of_phasesFrom hmoves hphases]
    rcases runPhase_completed hrun with ⟨rfl, img, -, rfl⟩ | ⟨rfl, rfl⟩ | ⟨src, rfl, rfl⟩ |
      ⟨src, dst, fmt, rfl | rfl, rfl⟩ | ⟨src, k, rfl, rfl⟩
    · simp [PhaseOp.phase]
    · simp [phBlur, sameHeader]
    · simp [phSobel, sameHeader]
    · simp [phEncode, sameHeader, PhaseOp.phase]
    · obtain rfl := dst_of_encode2 hphases
      simp [phEncode, sameHeader, PhaseOp.phase]
    · simp [phConvolve, sameHeader]
  | failed script e hmoves hphase hstream => simp [performs, hmoves, hphase]
  | quiet => simp [sameHeader]
  | inLen v rest hbusy hscript => simp [sameHeader, hbusy, hscript]
  | inp => simp [sameHeader]
  | clear rest hbusy hscript =>
    have hclear : writesCommand s 0#32 := ⟨hbusy, rest, hscript⟩
    simpa [hclear] using fun _ => .inr ⟨_, hclear⟩
  | start c i rest hbusy hscript | reject c e rest hbusy hscript =>
    have hwrite : writesCommand s c := ⟨hbusy, rest, hscript⟩
    simpa [sameHeader, hwrite] using fun _ => .inr ⟨c, hwrite⟩

/-! ### The changes of `STATE` and `PHASE` -/

/-- Phase completion (45 R257): the last phase leads to `DONE`, every other one to its successor in `PROCESS`. -/
theorem completion_cases {i : Instr} {p : Phase} {op : PhaseOp} {later : List PhaseOp}
    (h : phasesFrom (phasesOf i) p = op :: later) :
    (firstPhase later = .none ∧ ∀ fmt, i = .process fmt → p = .encode2) ∨
      (firstPhase later ≠ .none ∧ (∃ fmt, i = .process fmt) ∧
        (p, firstPhase later) ∈
          [(Phase.decode, Phase.blur), (.blur, .sobel), (.sobel, .encode), (.encode, .encode2)]) := by
  by_cases hprocess : ∃ fmt, i = .process fmt
  · obtain ⟨fmt, rfl⟩ := hprocess
    have hmem := phasesFrom_process h
    by_cases hlast : firstPhase later = .none <;> simp_all
  · rw [not_exists] at hprocess
    exact .inl ⟨(firstPhase_eq_none_iff later).2 (phasesFrom_of_not_process hprocess h),
      fun fmt hi => absurd hi (hprocess fmt)⟩

/-- The acceptance error of a command without its source says which buffer holds no image (45 R252). -/
theorem sourceReady_eq_false_iff (s : State) (src : Option Src) :
    s.sourceReady src = false ↔ ∃ b, src = some b ∧ s.sourceValid b = false := by
  cases src <;> simp [State.sourceReady]

theorem sourceReady_eq_true_iff (s : State) (src : Option Src) :
    s.sourceReady src = true ↔ ∀ b, src = some b → s.sourceValid b = true := by
  cases src <;> simp [State.sourceReady]

/-- Settles O56: phase completion is `completion_cases`, the other events are read off. -/
theorem stateTransitionsAreTheListed : Obligations.StateTransitionsAreTheListed := by
  intro s t h
  cases event_of_step h with
  | reset rest hscript => simp [resets, blockMoves, hscript]
  | completed script i op later u hmoves hdecode hphases hrun =>
    have hreset := not_resets_of_blockMoves hmoves
    obtain ⟨-, -, hstate, -⟩ := runPhase_completed_frame hrun
    have hbusy : u.status.state = .busy := hstate.trans hmoves.1
    refine ⟨(absurd · hreset), fun _ => .inr ?_, fun _ _ hn => absurd hmoves hn, fun _ hn => absurd hmoves.1 hn⟩
    simp only [State.finish_state, State.finish_phase, hbusy, hdecode, Except.ok.injEq]
    rcases completion_cases hphases with ⟨hlast, hprocess⟩ | ⟨hnext, hprocess, hpair⟩
    · exact .inl ⟨if_pos hlast, hlast, fun ⟨fmt, hi⟩ => hprocess fmt hi⟩
    · exact .inr ⟨if_neg hnext, hprocess, hpair⟩
  | failed script e hmoves hphase hstream =>
    have hreset := not_resets_of_blockMoves hmoves
    exact ⟨(absurd · hreset), fun _ => .inl ⟨rfl, rfl, hphase⟩, fun _ _ hn => absurd hmoves hn,
      fun _ hn => absurd hmoves.1 hn⟩
  | quiet script r d hreset hmoves => simp [hreset, hmoves]
  | inLen v rest hbusy hscript => simp [resets, blockMoves, hscript, hbusy]
  | inp k v rest hbusy hk hscript => simp [resets, blockMoves, hscript, hbusy]
  | clear rest hbusy hscript =>
    have hreset := not_resets_of_access hscript
    have hmoves := not_blockMoves_of_access hscript
    exact ⟨(absurd · hreset), (absurd · hmoves), fun _ hb => absurd hb hbusy,
      fun _ _ _ => ⟨0, ⟨hbusy, rest, hscript⟩, .inl ⟨rfl, rfl, rfl⟩⟩⟩
  | start c i rest hbusy hscript hdecode hclear hready =>
    have hreset := not_resets_of_access hscript
    have hmoves := not_blockMoves_of_access hscript
    have hsource := (sourceReady_eq_true_iff s _).1 hready
    exact ⟨(absurd · hreset), (absurd · hmoves), fun _ hb => absurd hb hbusy,
      fun _ _ _ => ⟨c, ⟨hbusy, rest, hscript⟩, .inr (.inl ⟨rfl, i, hdecode, hclear, rfl, hsource⟩)⟩⟩
  | reject c e rest hbusy hscript hwhy =>
    have hreset := not_resets_of_access hscript
    have hmoves := not_blockMoves_of_access hscript
    have hcause : (∃ e, decode c = .error e) ∨
        ∃ i b, decode c = .ok i ∧ sourceOf i = some b ∧ s.sourceValid b = false := by
      rcases hwhy with ⟨-, herror⟩ | ⟨-, i, hdecode, hready⟩
      · exact .inl herror
      · obtain ⟨b, hb⟩ := (sourceReady_eq_false_iff s _).1 hready
        exact .inr ⟨i, b, hdecode, hb⟩
    exact ⟨(absurd · hreset), (absurd · hmoves), fun _ hb => absurd hb hbusy,
      fun _ _ _ => ⟨c, ⟨hbusy, rest, hscript⟩, .inr (.inr ⟨rfl, rfl, hcause⟩)⟩⟩

end Sys2Proof.Machine
end

section
/-! PROOF. The three kernels as written-out sums over the zero-padded footprint (spec/42_convolution_engine.md R191 to
R197, spec/10_state.md R40), and the bound of a blurred sample by the largest source sample (spec/43_gaussian_blur.md
R220 (b)). -/

namespace Sys2Proof.Machine

/-- The sample at an offset from a position, 0 outside the image (R194). -/
def neighbour (img : Nat → Byte) (w h row col : Nat) (dr dc : Int) : Int :=
  pix img w h ((row : Int) + dr) ((col : Int) + dc)

theorem tap_eq_neighbour (img : Nat → Byte) (w h : Nat) (k : Kernel) (row col i j : Nat) :
    tap img w h k row col i j =
      neighbour img w h row col ((i : Int) - k.radius) ((j : Int) - k.radius) * k.weight i j := by
  simp only [tap, neighbour, add_sub_assoc]

/-- The `GAUSS5` sum of the samples `s dr dc` at the offsets of the footprint (R40), its equal weights gathered. -/
def gauss5Sum (s : Int → Int → Int) : Int :=
  2 * (s (-2) (-2) + s (-2) 2 + s 2 (-2) + s 2 2) +
    4 * (s (-2) (-1) + s (-2) 1 + s 2 (-1) + s 2 1 + s (-1) (-2) + s (-1) 2 + s 1 (-2) + s 1 2) +
    5 * (s (-2) 0 + s 2 0 + s 0 (-2) + s 0 2) + 9 * (s (-1) (-1) + s (-1) 1 + s 1 (-1) + s 1 1) +
    12 * (s (-1) 0 + s 1 0 + s 0 (-1) + s 0 1) + 15 * s 0 0

/-- The `SOBELX` sum (R40, R232). -/
def sobelxSum (s : Int → Int → Int) : Int :=
  (s (-1) 1 - s (-1) (-1)) + 2 * (s 0 1 - s 0 (-1)) + (s 1 1 - s 1 (-1))

/-- The `SOBELY` sum (R40, R232). -/
def sobelySum (s : Int → Int → Int) : Int :=
  (s 1 (-1) - s (-1) (-1)) + 2 * (s 1 0 - s (-1) 0) + (s 1 1 - s (-1) 1)

theorem acc_gauss5 (img : Nat → Byte) (w h row col : Nat) :
    acc img w h .gauss5 row col = gauss5Sum (neighbour img w h row col) := by
  simp only [acc, rowMajor, tap_eq_neighbour, gauss5Sum]
  simp [krom, List.range_succ, Kernel.weight]
  ring

theorem acc_sobelx (img : Nat → Byte) (w h row col : Nat) :
    acc img w h .sobelx row col = sobelxSum (neighbour img w h row col) := by
  simp only [acc, rowMajor, tap_eq_neighbour, sobelxSum]
  simp [krom, List.range_succ, Kernel.weight]
  ring

theorem acc_sobely (img : Nat → Byte) (w h row col : Nat) :
    acc img w h .sobely row col = sobelySum (neighbour img w h row col) := by
  simp only [acc, rowMajor, tap_eq_neighbour, sobelySum]
  simp [krom, List.range_succ, Kernel.weight]
  ring

/-- The weights of `GAUSS5` are positive. -/
theorem gauss5Sum_mono {s s' : Int → Int → Int} (h : ∀ dr dc, s dr dc ≤ s' dr dc) : gauss5Sum s ≤ gauss5Sum s' := by
  unfold gauss5Sum
  gcongr <;> exact h _ _

/-- The weights of `GAUSS5` sum to its divisor. -/
theorem gauss5Sum_const (m : Int) : gauss5Sum (fun _ _ => m) = 159 * m := by
  unfold gauss5Sum
  ring

/-- Truncation of a nonnegative accumulation is its floor (R197). -/
theorem tdiv_of_nonneg {a d : Int} (ha : 0 ≤ a) : tdiv a d = a / d := by
  simp [tdiv, ha]

/-- The divisor of the two Sobel kernels is 1 (R40). -/
theorem tdiv_one (a : Int) : tdiv a 1 = a := by
  simp [tdiv]

/-- A padded sample is one of the image's, or 0. -/
theorem pix_bounds {img : Nat → Byte} {w h m : Nat} (hm : ∀ k, k < w * h → (img k).toNat ≤ m) (r c : Int) :
    0 ≤ pix img w h r c ∧ pix img w h r c ≤ m := by
  unfold pix
  split
  · next hin =>
    obtain ⟨hr, hrh, hc, hcw⟩ := hin
    have hindex : r.toNat * w + c.toNat < w * h :=
      calc r.toNat * w + c.toNat < r.toNat * w + w := by omega
        _ = (r.toNat + 1) * w := by ring
        _ ≤ h * w := Nat.mul_le_mul_right w (by omega)
        _ = w * h := Nat.mul_comm h w
    have := hm _ hindex
    omega
  · omega

theorem neighbour_bounds {img : Nat → Byte} {w h m : Nat} (hm : ∀ k, k < w * h → (img k).toNat ≤ m) (row col : Nat)
    (dr dc : Int) : 0 ≤ neighbour img w h row col dr dc ∧ neighbour img w h row col dr dc ≤ m :=
  pix_bounds hm _ _

theorem acc_gauss5_bounds {img : Nat → Byte} {w h m : Nat} (hm : ∀ k, k < w * h → (img k).toNat ≤ m) (row col : Nat) :
    0 ≤ acc img w h .gauss5 row col ∧ acc img w h .gauss5 row col ≤ 159 * m := by
  have hb := neighbour_bounds hm row col
  rw [acc_gauss5, ← gauss5Sum_const]
  refine ⟨?_, gauss5Sum_mono fun dr dc => (hb dr dc).2⟩
  calc 0 = gauss5Sum (fun _ _ => 0) := (gauss5Sum_const 0).symm
    _ ≤ _ := gauss5Sum_mono fun dr dc => (hb dr dc).1

/-- A blurred sample is between 0 and the largest sample (43 R220 (b)). -/
theorem conv_gauss5_bounds {img : Nat → Byte} {w h m : Nat} (hm : ∀ k, k < w * h → (img k).toNat ≤ m) (row col : Nat) :
    0 ≤ conv img w h .gauss5 row col ∧ conv img w h .gauss5 row col ≤ m := by
  obtain ⟨hnonneg, hle⟩ := acc_gauss5_bounds hm row col
  rw [conv, tdiv_of_nonneg hnonneg, show (krom .gauss5).divisor = 159 from rfl]
  omega

theorem acc_gauss5_nonneg (img : Nat → Byte) (w h row col : Nat) : 0 ≤ acc img w h .gauss5 row col :=
  (acc_gauss5_bounds (m := 255) (fun k _ => Nat.le_of_lt_succ (img k).isLt) row col).1

/-- The sample at an offset, with its index as one integer expression. -/
theorem neighbour_eq_ite (img : Nat → Byte) (w h row col : Nat) (dr dc : Int) :
    neighbour img w h row col dr dc =
      if 0 ≤ (row : Int) + dr ∧ (row : Int) + dr < h ∧ 0 ≤ (col : Int) + dc ∧ (col : Int) + dc < w then
        ((img (((row : Int) + dr) * w + ((col : Int) + dc)).toNat).toNat : Int) else 0 := by
  unfold neighbour pix
  split
  · next hin =>
    obtain ⟨hr, -, hc, -⟩ := hin
    rw [Int.toNat_add (by positivity) hc, Int.toNat_mul hr (by omega), Int.toNat_natCast]
  · rfl

/-- Settles O26: the sum is nonnegative, so the quotient by 159 is its floor. -/
theorem convIsThePaddedKernelSum : Obligations.ConvIsThePaddedKernelSum := by
  intro img w h row col s sum hs hsum
  obtain rfl : s = neighbour img w h row col := by
    funext dr dc
    rw [hs, neighbour_eq_ite]
  have hacc : acc img w h .gauss5 row col = sum := (acc_gauss5 img w h row col).trans hsum.symm
  have hgauss : conv img w h .gauss5 row col = sum / 159 := by
    rw [conv, tdiv_of_nonneg (acc_gauss5_nonneg img w h row col), hacc]
    rfl
  refine ⟨hacc, by omega, by omega, ?_, ?_⟩
  · exact (tdiv_one _).trans (acc_sobelx img w h row col)
  · exact (tdiv_one _).trans (acc_sobely img w h row col)

end Sys2Proof.Machine
end

section
/-! PROOF. What a decode can answer (spec/40_graymap_decoder.md R132 to R152): an image within the sizes of R140 to
R148, or an error code other than `NONE`. -/

namespace Sys2Proof.Machine

/-! ### The image of a decode that succeeds -/

/-- The bounds of R140, R141, R146 and R147 or R148 on a decoded image. -/
structure DecodedImage.Fits (p : Params) (img : DecodedImage) : Prop where
  width : 1 ≤ img.width
  height : 1 ≤ img.height
  maxval : img.maxval ≤ 255
  size : img.width * img.height ≤ p.maxPixels
  count : img.samples.length = img.width * img.height
  range : ∀ b ∈ img.samples, b.toNat ≤ img.maxval

theorem checkHeader_eq_ok {p : Params} {h : Header} {u : Unit} (hc : checkHeader p h = .ok u) :
    0 < h.width ∧ 0 < h.height ∧ 0 ≤ h.maxval ∧ h.maxval ≤ 255 ∧ h.width * h.height ≤ p.maxPixels := by
  unfold checkHeader at hc
  split at hc
  · cases hc
  split at hc
  · cases hc
  split at hc
  · cases hc
  · omega

theorem binarySamples_eq_ok {n m : Nat} {area vs : List Byte} (h : binarySamples n m area = .ok vs) :
    vs.length = n ∧ ∀ b ∈ vs, b.toNat ≤ m := by
  unfold binarySamples at h
  split at h
  · cases h
  · next hlen =>
    split at h
    · next hall =>
      cases h
      exact ⟨List.length_take_of_le (by omega), by simpa using hall⟩
    · cases h

theorem sampleToken_eq_ok {m : Nat} {area rest : List Byte} {v : Byte}
    (h : sampleToken m area = .ok (v, rest)) : v.toNat ≤ m := by
  unfold sampleToken at h
  split at h
  · cases h
  split at h
  · dsimp only at h
    split at h
    · cases h
    split at h
    · cases h
    · cases h
      rw [BitVec.toNat_ofNat]
      exact (Nat.mod_le _ _).trans (by omega)
  · cases h

theorem textSamples_eq_ok {m n : Nat} {area vs : List Byte} (h : textSamples m n area = .ok vs) :
    vs.length = n ∧ ∀ b ∈ vs, b.toNat ≤ m := by
  induction n generalizing area vs with
  | zero =>
    cases h
    simp
  | succ n ih =>
    simp only [textSamples, except_bind_eq_ok_iff, pure, Except.pure, Except.ok.injEq] at h
    obtain ⟨⟨v, rest⟩, htoken, tail, htail, rfl⟩ := h
    obtain ⟨hlen, hrange⟩ := ih htail
    exact ⟨congrArg (· + 1) hlen, List.forall_mem_cons.2 ⟨sampleToken_eq_ok htoken, hrange⟩⟩

/-- The samples of the variant the header names (R147, R148). -/
def Header.samples (h : Header) : Except ErrCode (List Byte) :=
  match h.fmt with
  | .bin => binarySamples (h.width.toNat * h.height.toNat) h.maxval.toNat h.area
  | .text => textSamples h.maxval.toNat (h.width.toNat * h.height.toNat) h.area

theorem decodeStream_eq (p : Params) (stream : List Byte) :
    decodeStream p stream = readHeader p stream >>= fun h => checkHeader p h >>= fun _ => h.samples >>= fun samples =>
      .ok { fmt := h.fmt, width := h.width.toNat, height := h.height.toNat, maxval := h.maxval.toNat, samples } := by
  unfold decodeStream
  congr! with h u
  obtain ⟨fmt, width, height, maxval, area⟩ := h
  cases fmt <;> rfl

theorem Header.samples_eq_ok {h : Header} {vs : List Byte} (hvs : h.samples = .ok vs) :
    vs.length = h.width.toNat * h.height.toNat ∧ ∀ b ∈ vs, b.toNat ≤ h.maxval.toNat := by
  unfold Header.samples at hvs
  split at hvs
  · exact binarySamples_eq_ok hvs
  · exact textSamples_eq_ok hvs

/-- A decode answers an image that fits. -/
theorem decodeStream_fits {p : Params} {stream : List Byte} {img : DecodedImage}
    (h : decodeStream p stream = .ok img) : img.Fits p := by
  simp only [decodeStream_eq, except_bind_eq_ok_iff, Except.ok.injEq] at h
  obtain ⟨hdr, -, _, hcheck, samples, hsamples, rfl⟩ := h
  obtain ⟨hw, hh, -, hm, hsize⟩ := checkHeader_eq_ok hcheck
  obtain ⟨hcount, hrange⟩ := Header.samples_eq_ok hsamples
  have hproduct : ((hdr.width.toNat * hdr.height.toNat : Nat) : Int) = hdr.width * hdr.height := by
    rw [Nat.cast_mul, Int.toNat_of_nonneg hw.le, Int.toNat_of_nonneg hh.le]
  exact
    { width := by dsimp only; omega
      height := by dsimp only; omega
      maxval := by dsimp only; omega
      size := by dsimp only; omega
      count := hcount
      range := hrange }

/-! ### The code of a decode that fails -/

theorem except_bind_ne_error {ε α β : Type} {x : Except ε α} {f : α → Except ε β} {e : ε} (hx : x ≠ .error e)
    (hf : ∀ a, f a ≠ .error e) : (x >>= f) ≠ .error e := by
  cases x with
  | error e' => exact fun h => hx (congrArg _ (Except.error.inj h))
  | ok a => exact hf a

theorem except_map_ne_error {ε α β : Type} {x : Except ε α} {f : α → β} {e : ε} (hx : x ≠ .error e) :
    x.map f ≠ .error e := by
  cases x with
  | error e' => exact fun h => hx (congrArg _ (Except.error.inj h))
  | ok a => exact nofun

theorem magic_ne_none (p : Params) (l : List Byte) : magic p l ≠ .error .none := by
  unfold magic
  split
  · split_ifs <;> exact nofun
  · exact nofun

theorem gap_ne_none (l : List Byte) : gap l ≠ .error .none := by
  cases l with
  | nil => exact nofun
  | cons b rest =>
    rw [gap]
    split_ifs <;> exact nofun

theorem digits_ne_none (l : List Byte) : digits l ≠ .error .none := by
  cases l with
  | nil => exact nofun
  | cons b rest =>
    rw [digits]
    split_ifs <;> exact nofun

theorem hint_ne_none (l : List Byte) : hint l ≠ .error .none := by
  cases l with
  | nil => exact nofun
  | cons b rest =>
    rw [hint]
    split_ifs <;> exact except_map_ne_error (digits_ne_none _)

theorem headerEnd_ne_none (l : List Byte) : headerEnd l ≠ .error .none := by
  cases l with
  | nil => exact nofun
  | cons b rest =>
    rw [headerEnd]
    split_ifs <;> exact nofun

theorem readHeader_ne_none (p : Params) (l : List Byte) : readHeader p l ≠ .error .none :=
  except_bind_ne_error (magic_ne_none p l) fun _ =>
    except_bind_ne_error (gap_ne_none _) fun _ => except_bind_ne_error (hint_ne_none _) fun _ =>
    except_bind_ne_error (gap_ne_none _) fun _ => except_bind_ne_error (hint_ne_none _) fun _ =>
    except_bind_ne_error (gap_ne_none _) fun _ => except_bind_ne_error (hint_ne_none _) fun _ =>
    except_bind_ne_error (headerEnd_ne_none _) fun _ => nofun

theorem checkHeader_ne_none (p : Params) (h : Header) : checkHeader p h ≠ .error .none := by
  unfold checkHeader
  split_ifs <;> exact nofun

theorem binarySamples_ne_none (n m : Nat) (area : List Byte) : binarySamples n m area ≠ .error .none := by
  unfold binarySamples
  split_ifs <;> exact nofun

theorem sampleToken_ne_none (m : Nat) (area : List Byte) : sampleToken m area ≠ .error .none := by
  unfold sampleToken
  split
  · exact nofun
  · dsimp only
    split_ifs <;> exact nofun

theorem textSamples_ne_none (m n : Nat) (area : List Byte) : textSamples m n area ≠ .error .none := by
  induction n generalizing area with
  | zero => exact nofun
  | succ n ih =>
    exact except_bind_ne_error (sampleToken_ne_none m area) fun _ => except_bind_ne_error (ih _) fun _ => nofun

theorem Header.samples_ne_none (h : Header) : h.samples ≠ .error .none := by
  unfold Header.samples
  split
  · exact binarySamples_ne_none _ _ _
  · exact textSamples_ne_none _ _ _

/-- A decode never fails without an error code (60 R280). -/
theorem decodeStream_ne_none (p : Params) (stream : List Byte) : decodeStream p stream ≠ .error .none := by
  rw [decodeStream_eq]
  exact except_bind_ne_error (readHeader_ne_none p stream) fun h =>
    except_bind_ne_error (checkHeader_ne_none p h) fun _ => except_bind_ne_error h.samples_ne_none fun _ => nofun

end Sys2Proof.Machine
end

section
/-! PROOF. The invariant of spec/10_state.md R45 holds at reset and every step keeps it. Its clauses about registers and
buffers are kept apart from its clauses about `STATE`, `PHASE` and `ERR`: the first are those of the settled state. -/

namespace Sys2Proof.Machine

/-! ### Elements and capacities of the buffers -/

theorem Cells.full_ofList {w : Nat} {n : Nat} {vs : List (BitVec w)} (h : n ≤ vs.length) :
    Cells.full n (Cells.ofList vs) := by
  intro i hi
  rw [Cells.read_ofList, List.getElem?_eq_getElem (by omega)]
  rfl

theorem Cells.full_overlay {w : Nat} {n : Nat} {vs : List (BitVec w)} (h : vs.length = n) (m : Cells w) :
    Cells.full n (Cells.overlay vs m) := by
  intro i hi
  rw [Cells.read_overlay_lt vs m i (by omega), List.getElem?_eq_getElem (by omega)]
  rfl

theorem samplesAtMost_ofList {n bound : Nat} {vs : List Byte} (h : ∀ b ∈ vs, b.toNat ≤ bound) :
    samplesAtMost n bound (Cells.ofList vs) := by
  intro i b _ hread
  rw [Cells.read_ofList] at hread
  exact h b (List.mem_of_getElem? hread)

theorem samplesAtMost_overlay {n bound : Nat} {vs : List Byte} (hlen : vs.length = n)
    (h : ∀ b ∈ vs, b.toNat ≤ bound) (m : Cells 8) : samplesAtMost n bound (Cells.overlay vs m) := by
  intro i b hi hread
  rw [Cells.read_overlay_lt vs m i (by omega)] at hread
  exact h b (List.mem_of_getElem? hread)

theorem Memory.within_setBytes {p : Params} {m : Memory} {sp : ByteSpace} {c : Cells 8} (hm : m.within p = true)
    (hc : Cells.below (capacity p sp) c = true) : (m.setBytes sp c).within p = true := by
  rw [Memory.within_iff] at hm ⊢
  refine ⟨fun sp' => ?_, by simpa using hm.2⟩
  rw [Memory.bytes_setBytes]
  split
  · next hsp => exact hsp ▸ hc
  · exact hm.1 sp'

theorem Memory.within_setConv {p : Params} {m : Memory} {c : Cells 32} (hm : m.within p = true)
    (hc : Cells.below p.maxPixels c = true) : ({ m with conv := c } : Memory).within p = true := by
  rw [Memory.within_iff] at hm ⊢
  exact ⟨fun sp => by simpa using hm.1 sp, hc⟩

theorem Memory.below_bytes {p : Params} {m : Memory} (hm : m.within p = true) (sp : ByteSpace) :
    Cells.below (capacity p sp) (m.bytes sp) = true :=
  ((Memory.within_iff p m).1 hm).1 sp

/-- A stage's store of no more elements than the buffer holds keeps the capacities. -/
theorem State.storeBytes_within {s : State} {sp : ByteSpace} {vs : List Byte} (hm : s.mem.within s.params = true)
    (hlen : vs.length ≤ capacity s.params sp) : (s.storeBytes sp vs).mem.within s.params = true :=
  Memory.within_setBytes hm (Cells.below_overlay _ _ _ hlen (Memory.below_bytes hm sp))

theorem State.storeConv_within {s : State} {vs : List Word} (hm : s.mem.within s.params = true)
    (hlen : vs.length ≤ s.params.maxPixels) : (s.storeConv vs).mem.within s.params = true :=
  Memory.within_setConv hm (Cells.below_overlay _ _ _ hlen ((Memory.within_iff _ _).1 hm).2)

theorem State.replaceBytes_within {s : State} {sp : ByteSpace} {vs : List Byte} (hm : s.mem.within s.params = true)
    (hlen : vs.length ≤ capacity s.params sp) : (s.replaceBytes sp vs).mem.within s.params = true :=
  Memory.within_setBytes hm (Cells.below_ofList _ _ hlen)

/-! ### The settled state -/

/-- The state with its registers and buffers, as if its command had just ended in `DONE`. -/
def State.settled (s : State) : State :=
  { s with status := { s.status with state := .done, phase := .none }, err := .none }

/-- The clauses of the invariant that are not about `STATE`, `PHASE` and `ERR`. -/
theorem Inv.settled {s : State} (h : Inv s) : Inv s.settled :=
  { h with
    phase := by simp [State.settled]
    err := by simp [State.settled]
    idle := by simp [State.settled]
    busy := by simp [State.settled] }

/-- The other clauses are those about `STATE`, `PHASE` and `ERR`. -/
theorem Inv.of_settled {s : State} (h : Inv s.settled) (hphase : s.status.state ≠ .busy ↔ s.status.phase = .none)
    (herr : s.err ≠ .none ↔ s.status.state = .error) (hidle : s.status.state = .idle → s.status.vFrame1 = false)
    (hbusy : s.status.state = .busy → running s) : Inv s :=
  { h with phase := hphase, err := herr, idle := hidle, busy := hbusy }

theorem Inv.raise {s : State} (h : Inv s.settled) {e : ErrCode} (he : e ≠ .none) : Inv (s.raise e) :=
  .of_settled h (by simp) (by simp [he]) (by simp) (by simp)

theorem Inv.start {s : State} (h : Inv s.settled) {p : Phase} (hp : p ≠ .none) (hrun : running (s.start p)) :
    Inv (s.start p) :=
  .of_settled h (by simp [hp]) (by simp) (by simp) fun _ => hrun

theorem Inv.finish {s : State} (h : Inv s.settled) (hbusy : s.status.state = .busy) (herr : s.err = .none) {p : Phase}
    (hrun : p ≠ .none → running (s.finish p)) : Inv (s.finish p) := by
  by_cases hp : p = .none
  · subst hp
    exact .of_settled h (by simp) (by simp [herr]) (by simp) (by simp)
  · have hsettled : (s.finish p).settled = s.settled := by simp [State.settled, State.finish, hp]
    exact .of_settled (hsettled ▸ h) (by simp [hp, hbusy]) (by simp [hp, hbusy, herr]) (by simp [hp, hbusy])
      fun _ => hrun hp

/-- The model's own fields take no part in the invariant (log entries 1, 9, 18). -/
theorem Inv.modelFields {s : State} (h : Inv s) (script : List Turn) (r : ReadData) (d : Nat) :
    Inv { s with script := script, readData := r, draws := d } :=
  { h with }

/-- While the block is not `BUSY`, `CMD` takes no part in it. -/
theorem Inv.settled_cmd {s : State} (h : Inv s) (c : Word) (rest : List Turn) :
    Inv ({ s with script := rest, cmd := c } : State).settled :=
  { h.settled with busy := by simp [State.settled] }

/-! ### The image and its sources -/

/-- A source that holds an image was made from a decoded one (R45 (c)). -/
theorem Inv.vFrame1_of_sourceValid {s : State} (h : Inv s) {b : Src} (hb : s.sourceValid b = true) :
    s.status.vFrame1 = true := by
  cases b with
  | frame1 => exact hb
  | filt => exact h.derived (.inl hb)
  | grad => exact h.derived (.inr (.inl hb))

theorem Inv.sampleCount_le {s : State} (h : Inv s) (hv : s.status.vFrame1 = true) :
    s.width.toNat * s.height.toNat ≤ s.params.maxPixels := by
  obtain ⟨-, -, hsize, -⟩ := h.image hv
  exact hsize

/-- Every sample of a decoded image is at most `MAXVAL`, as the stages read it. -/
theorem Inv.frame1_sample_le {s : State} (h : Inv s) (hv : s.status.vFrame1 = true) (k : Nat)
    (hk : k < s.width.toNat * s.height.toNat) : (s.image .frame1 k).toNat ≤ s.maxval.toNat := by
  obtain ⟨-, -, -, -, hrange⟩ := h.image hv
  obtain ⟨b, hb⟩ := Option.isSome_iff_exists.1 (h.written.1 hv k hk)
  have hread : s.image .frame1 k = b := by
    simp only [State.image, State.byteAt, srcSpace, Memory.bytes, hb, Option.getD_some]
  exact hread ▸ hrange k b hk hb

/-- No sample of the blurred image exceeds the largest of the image (43 R220 (b)). -/
theorem mem_blurImage_le {img : Nat → Byte} {w h : Nat} {m : Byte} (hm : ∀ k, k < w * h → (img k).toNat ≤ m.toNat)
    {b : Byte} (hb : b ∈ blurImage img w h) : b.toNat ≤ m.toNat := by
  obtain ⟨row, -, col, -, rfl⟩ := mem_rowMajor.1 hb
  obtain ⟨hnonneg, hle⟩ := conv_gauss5_bounds hm row col
  have hlt := m.isLt
  rw [BitVec.toNat_ofInt]
  omega

/-! ### Clearing and decoding -/

/-- Clearing the run state (R131, R254) leaves nothing for the clauses about images and streams to speak of. -/
theorem Inv.clearRun {s : State} (h : Inv s.settled) : Inv s.clearRun.settled :=
  { h with
    derived := by simp [State.settled]
    image := by simp [State.settled]
    noImage := by simp [State.settled]
    filtered := by simp [State.settled]
    lengths := ⟨Nat.zero_le _, Nat.zero_le _⟩
    written := by simp [State.settled]
    noOutput := by simp [State.settled]
    idle := by simp [State.settled]
    busy := by simp [State.settled] }

theorem Inv.release {s : State} (h : Inv s.settled) : Inv s.release := by
  have hclear : Inv s.clearRun.settled := h.clearRun
  exact .of_settled hclear (by simp) (by simp) (by simp) (by simp)

/-- A failed decode leaves no element in `FRAME1`, and no image (R150). -/
theorem Inv.dropFrame1 {s : State} (h : Inv s) : Inv (s.clearRun.replaceBytes .frame1 []).settled :=
  { h.settled.clearRun with
    canonical := State.replaceBytes_wf _ _ _ h.canonical
    within := State.replaceBytes_within h.within (Nat.zero_le _)
    image := by simp [State.settled]
    written := by simp [State.settled] }

/-- The header registers hold a decoded image's sizes: they are wide enough (R29 to R31). -/
theorem DecodedImage.Fits.toNat_header {p : Params} (hp : paramsWf p) {img : DecodedImage} (hfits : img.Fits p) :
    (BitVec.ofNat 31 img.width).toNat = img.width ∧ (BitVec.ofNat 31 img.height).toNat = img.height ∧
      (BitVec.ofNat 8 img.maxval).toNat = img.maxval := by
  obtain ⟨-, hpixels, -⟩ := hp
  have hwidth : img.width ≤ p.maxPixels := (Nat.le_mul_of_pos_right _ hfits.height).trans hfits.size
  have hheight : img.height ≤ p.maxPixels := (Nat.le_mul_of_pos_left _ hfits.width).trans hfits.size
  have hmaxval := hfits.maxval
  exact ⟨Nat.mod_eq_of_lt (by omega), Nat.mod_eq_of_lt (by omega), Nat.mod_eq_of_lt (by omega)⟩

theorem Inv.commitImage {s : State} (h : Inv s) {img : DecodedImage} (hfits : img.Fits s.params) :
    Inv (s.clearRun.commitImage img).settled := by
  obtain ⟨hwidth, hheight, hmaxval⟩ := hfits.toNat_header h.params
  have hcount : (s.clearRun.commitImage img).settled.sampleCount = img.width * img.height := by
    simp [State.sampleCount, State.settled, hwidth, hheight]
  have hvariant : variantOf img.fmt ≠ .none := by cases img.fmt <;> simp [variantOf]
  exact
  { h.settled.clearRun with
    canonical := State.replaceBytes_wf _ _ _ h.canonical
    within := State.replaceBytes_within h.within (hfits.count.trans_le hfits.size)
    derived := fun _ => rfl
    image := fun _ => ⟨hwidth.symm ▸ hfits.width, hheight.symm ▸ hfits.height, hcount.symm ▸ hfits.size, hvariant,
      samplesAtMost_ofList (hmaxval.symm ▸ hfits.range)⟩
    noImage := by simp [State.settled]
    filtered := by simp [State.settled]
    written := by
      rw [hcount]
      simpa [State.settled, Memory.setBytes] using Cells.full_ofList hfits.count.ge
    idle := by simp [State.settled]
    busy := by simp [State.settled] }

/-! ### The stages -/

theorem Inv.blur {s : State} (h : Inv s) (hv : s.status.vFrame1 = true) : Inv (phBlur s).settled :=
  have hlen : (blurImage (s.image .frame1) s.width.toNat s.height.toNat).length = s.sampleCount :=
    blurImage_length _ _ _
  { h.settled with
    canonical := State.storeBytes_wf _ _ _ h.canonical
    within := State.storeBytes_within h.within (hlen.trans_le (h.sampleCount_le hv))
    derived := fun _ => hv
    filtered := fun _ => samplesAtMost_overlay hlen (fun _ => mem_blurImage_le (h.frame1_sample_le hv)) _
    written :=
      have ⟨hframe1, _, hgrad, hconv, hout0, hout1⟩ := h.written
      ⟨hframe1, fun _ => Cells.full_overlay hlen _, hgrad, hconv, hout0, hout1⟩
    busy := nofun }

theorem Inv.sobel {s : State} (h : Inv s) (src : Src) (hv : s.status.vFrame1 = true) : Inv (phSobel src s).settled :=
  have hlen : (sobelImage (s.image src) s.width.toNat s.height.toNat).length = s.sampleCount :=
    sobelImage_length _ _ _
  { h.settled with
    canonical := State.storeBytes_wf _ _ _ h.canonical
    within := State.storeBytes_within h.within (hlen.trans_le (h.sampleCount_le hv))
    derived := fun _ => hv
    written :=
      have ⟨hframe1, hfilt, _, hconv, hout0, hout1⟩ := h.written
      ⟨hframe1, hfilt, fun _ => Cells.full_overlay hlen _, hconv, hout0, hout1⟩
    busy := nofun }

theorem Inv.convolve {s : State} (h : Inv s) (src : Src) (k : KIdx) (hv : s.status.vFrame1 = true) :
    Inv (phConvolve src k s).settled :=
  have hlen : (convImage (s.image src) s.width.toNat s.height.toNat k).length = s.sampleCount :=
    convImage_length _ _ _ _
  { h.settled with
    canonical := State.storeConv_wf _ _ h.canonical
    within := State.storeConv_within h.within (hlen.trans_le (h.sampleCount_le hv))
    derived := fun _ => hv
    written :=
      have ⟨hframe1, hfilt, hgrad, _, hout0, hout1⟩ := h.written
      ⟨hframe1, hfilt, hgrad, fun _ => Cells.full_overlay hlen _, hout0, hout1⟩ }

/-- Storing a stream that fits the buffer, with its length and valid bit (41 R177). -/
theorem Inv.storeStream {s : State} (h : Inv s) (dst : Dst) {stream : List Byte}
    (hlen : stream.length ≤ s.params.maxOutBytes) (hv : s.status.vFrame1 = true) :
    Inv ((s.replaceBytes (dstSpace dst) stream).markOut dst stream.length).settled := by
  have hreg : (BitVec.ofNat 32 stream.length).toNat ≤ stream.length := Nat.mod_le _ _
  obtain ⟨hlen0, hlen1⟩ := h.lengths
  obtain ⟨hframe1, hfilt, hgrad, hconv, hout0, hout1⟩ := h.written
  obtain ⟨hno0, hno1⟩ := h.noOutput
  cases dst with
  | out0 =>
    exact
    { h.settled with
      canonical := State.replaceBytes_wf _ _ _ h.canonical
      within := State.replaceBytes_within h.within hlen
      derived := fun _ => hv
      lengths := ⟨hreg.trans hlen, hlen1⟩
      written := ⟨hframe1, hfilt, hgrad, hconv, fun _ => Cells.full_ofList hreg, hout1⟩
      noOutput := ⟨nofun, hno1⟩
      busy := nofun }
  | out1 =>
    exact
    { h.settled with
      canonical := State.replaceBytes_wf _ _ _ h.canonical
      within := State.replaceBytes_within h.within hlen
      derived := fun _ => hv
      lengths := ⟨hlen0, hreg.trans hlen⟩
      written := ⟨hframe1, hfilt, hgrad, hconv, hout0, fun _ => Cells.full_ofList hreg⟩
      noOutput := ⟨hno0, nofun⟩
      busy := nofun }

/-- The stream of an image fits its buffer (R45 (h), 41 R171). -/
theorem Inv.encode {s : State} (h : Inv s) (src : Src) (dst : Dst) (fmt : Fmt) (hv : s.status.vFrame1 = true) :
    Inv (phEncode src dst fmt s).settled :=
  h.storeStream dst (encodeNeverOverflows s src fmt h hv) hv

/-! ### The sequencer -/

/-- After a completed phase, the valid image buffers are those that the phase leaves. -/
theorem sourceValid_of_completed {op : PhaseOp} {s u : State} (h : runPhase op s = .completed u) :
    u.sourceValid = op.leaves s.sourceValid := by
  rcases runPhase_completed h with ⟨rfl, img, -, rfl⟩ | ⟨rfl, rfl⟩ | ⟨src, rfl, rfl⟩ |
    ⟨src, dst, fmt, rfl | rfl, rfl⟩ | ⟨src, k, rfl, rfl⟩ <;> funext b <;> cases b <;>
    simp [State.sourceValid, PhaseOp.leaves, phBlur, phSobel, phEncode, phConvolve]

/-- The first phase to come finds an image in the buffer it reads, the others after it. -/
theorem supplied_cons {valid : Src → Bool} {op : PhaseOp} {later : List PhaseOp}
    (h : supplied valid (op :: later) = true) :
    (∀ b, op.reads = some b → valid b = true) ∧ supplied (op.leaves valid) later = true := by
  simp only [supplied, Bool.and_eq_true] at h
  obtain ⟨hreads, hlater⟩ := h
  refine ⟨fun b hb => ?_, hlater⟩
  simpa [hb] using hreads

/-- A command whose source holds an image finds one in every phase (R252). -/
theorem supplied_phasesOf {s : State} {i : Instr} (h : s.sourceReady (sourceOf i) = true) :
    supplied s.sourceValid (phasesOf i) = true := by
  revert h
  cases i <;> simp [supplied, phasesOf, sourceOf, State.sourceReady, PhaseOp.reads, PhaseOp.leaves]

/-- A completed phase keeps the clauses about registers and buffers. -/
theorem Inv.completedPhase {s u : State} {op : PhaseOp} (h : Inv s)
    (hreads : ∀ b, op.reads = some b → s.sourceValid b = true) (hrun : runPhase op s = .completed u) :
    Inv u.settled := by
  have hv : ∀ b, op.reads = some b → s.status.vFrame1 = true := fun b hb => h.vFrame1_of_sourceValid (hreads b hb)
  rcases runPhase_completed hrun with ⟨rfl, img, hstream, rfl⟩ | ⟨rfl, rfl⟩ | ⟨src, rfl, rfl⟩ |
    ⟨src, dst, fmt, rfl | rfl, rfl⟩ | ⟨src, k, rfl, rfl⟩
  · exact h.commitImage (decodeStream_fits hstream)
  · exact h.blur (hv _ rfl)
  · exact h.sobel src (hv _ rfl)
  · exact h.encode src dst fmt (hv _ rfl)
  · exact h.encode src dst fmt (hv _ rfl)
  · exact h.convolve src k (hv _ rfl)

/-- The block's completed phase keeps the invariant: what is still to come is what was to come after it (R255, R257). -/
theorem Inv.completed {s u : State} {i : Instr} {op : PhaseOp} {later : List PhaseOp} (h : Inv s)
    (hbusy : s.status.state = .busy) (hdecode : decode s.cmd = .ok i)
    (hphases : phasesFrom (phasesOf i) s.status.phase = op :: later) (hrun : runPhase op s = .completed u) :
    Inv (u.finish (firstPhase later)) := by
  obtain ⟨i', hdecode', -, hsupplied⟩ := h.busy hbusy
  obtain rfl : i' = i := Except.ok.inj (hdecode'.symm.trans hdecode)
  rw [hphases] at hsupplied
  obtain ⟨hreads, hlater⟩ := supplied_cons hsupplied
  obtain ⟨-, hcmd, hstate, herr⟩ := runPhase_completed_frame hrun
  have hnoErr : s.err = .none := by
    by_contra hne
    simp [h.err.1 hne] at hbusy
  refine Inv.finish (h.completedPhase hreads hrun) (hstate.trans hbusy) (herr.trans hnoErr) fun hnext => ?_
  have hsource : (u.finish (firstPhase later)).sourceValid = op.leaves s.sourceValid := by
    rw [← sourceValid_of_completed hrun]
    funext b
    cases b <;> simp [State.sourceValid]
  have hphases' : phasesFrom (phasesOf i') (u.finish (firstPhase later)).status.phase = later := by
    rw [State.finish_phase, phasesFrom_next (phasesOf_nodup i') hphases]
  refine ⟨i', by rw [State.finish_cmd, hcmd, hdecode], ?_, ?_⟩
  · rw [hphases']
    exact fun hnil => hnext ((firstPhase_eq_none_iff later).2 hnil)
  · rw [hphases', hsource, hlater]

/-- Acceptance of a command keeps the invariant (R253). -/
theorem Inv.accepted {s : State} {c : Word} {i : Instr} (rest : List Turn) (h : Inv s) (hdecode : decode c = .ok i)
    (hclear : i ≠ .clear) (hready : s.sourceReady (sourceOf i) = true) :
    Inv (({ s with script := rest, cmd := c } : State).start (firstPhase (phasesOf i))) := by
  have hplan : phasesOf i ≠ [] := by cases i <;> simp_all [phasesOf]
  refine Inv.start (h.settled_cmd c rest) ((firstPhase_eq_none_iff _).not.2 hplan) ⟨i, hdecode, ?_, ?_⟩ <;>
    rw [State.start_phase, phasesFrom_firstPhase]
  · exact hplan
  · exact supplied_phasesOf hready

/-! ### Reset and the step -/

theorem inv_resetOf {p : Params} (hp : paramsWf p) (script : List Turn) :
    Inv { State.resetOf p with script := script } where
  params := hp
  canonical := rfl
  within := rfl
  phase := by simp [State.resetOf, Status.reset]
  err := by simp [State.resetOf, Status.reset]
  derived := by simp [State.resetOf, Status.reset]
  image := by simp [State.resetOf, Status.reset]
  noImage := fun _ => ⟨rfl, rfl, rfl, rfl⟩
  filtered := by simp [State.resetOf, Status.reset]
  lengths := ⟨Nat.zero_le _, Nat.zero_le _⟩
  inLen := Nat.zero_le _
  written := by simp [State.resetOf, Status.reset]
  noOutput := ⟨fun _ => rfl, fun _ => rfl⟩
  idle := fun _ => rfl
  busy := by simp [State.resetOf, Status.reset]

/-- The sizes of `State.reset` are admitted (R5 to R8). -/
theorem paramsWf_resetParams : paramsWf Config.resetParams := by
  refine ⟨by decide, by decide, by decide, by decide, ?_, by decide⟩
  have hdigits : ndigits 1048576 = 7 := by
    rw [ndigits, dec_length]
    norm_num
  simp [outBound, Config.resetParams, hdigits]

/-- Settles O52. -/
theorem resetStateIsGood : Obligations.ResetStateIsGood :=
  ⟨inv_resetOf paramsWf_resetParams [], fun _ script hp => inv_resetOf hp script⟩

/-- A host write to `IN_LEN` stores at most `MAX_IN_BYTES` (R27). -/
theorem saturate_toNat (p : Params) (v : Word) : (saturate p v).toNat = min v.toNat p.maxInBytes :=
  Nat.mod_eq_of_lt ((Nat.min_le_left _ _).trans_lt v.isLt)

/-- Settles O53: the invariant is kept by each event of a step. -/
theorem everyStepKeepsTheInvariant : Obligations.EveryStepKeepsTheInvariant := by
  intro s t h hstep
  cases event_of_step hstep with
  | reset rest hscript => exact (inv_resetOf h.params rest).modelFields _ _ _
  | completed script i op later u hmoves hdecode hphases hrun =>
    have htick : Inv ({ s with script := script } : State).tick := h.modelFields _ _ _
    exact htick.completed hmoves.1 hdecode hphases hrun
  | failed script e hmoves hphase hstream =>
    have htick : Inv ({ s with script := script } : State).tick := h.modelFields _ _ _
    exact htick.dropFrame1.raise fun he => decodeStream_ne_none _ _ (he ▸ hstream)
  | quiet script r d => exact h.modelFields script r d
  | inLen v rest => exact { h with inLen := (saturate_toNat _ v).trans_le (Nat.min_le_right _ _) }
  | inp k v rest hbusy hk =>
    exact
    { h with
      canonical := Memory.wf_writeInp _ _ _ h.canonical
      within := Memory.within_setBytes (sp := .inp) h.within
        (Cells.below_write _ _ _ _ hk (Memory.below_bytes h.within .inp)) }
  | clear rest => exact Inv.release (h.settled_cmd 0 rest)
  | start c i rest hbusy hscript hdecode hclear hready => exact h.accepted rest hdecode hclear hready
  | reject c e rest hbusy hscript hwhy =>
    refine Inv.raise (h.settled_cmd c rest) ?_
    rcases hwhy with ⟨rfl, -⟩ | ⟨rfl, -⟩ <;> simp

end Sys2Proof.Machine
end

section
/-! PROOF. No state that meets the invariant faults: a `BUSY` block has a legal command and one of its phases to execute
(spec/10_state.md R22, spec/45_pipeline_control.md R255). -/

namespace Sys2Proof.Machine

/-- A command with a phase to come has a block step to a next state. -/
theorem blockPhase_ne_fault {plan : List PhaseOp} {s : State} (h : phasesFrom plan s.status.phase ≠ []) (f : Fault) :
    blockPhase plan s ≠ .fault f := by
  obtain ⟨op, later, hphases⟩ := List.exists_cons_of_ne_nil h
  simp only [blockPhase, phaseNamed_eq_head?, hphases, List.head?_cons]
  cases runPhase op s <;> simp

theorem Inv.blockTurn_ne_fault {s : State} (h : Inv s) (f : Fault) : blockTurn s ≠ .fault f := by
  rcases blockTurn_cases s with ⟨-, hwait⟩ | ⟨hbusy, ⟨e, herror⟩, -⟩ | ⟨hbusy, i, hdecode, hexec⟩
  · simp [hwait]
  · obtain ⟨i, hdecode, -⟩ := h.busy hbusy
    cases herror.symm.trans hdecode
  · obtain ⟨i', hdecode', hphases, -⟩ := h.busy hbusy
    obtain rfl : i' = i := Except.ok.inj (hdecode'.symm.trans hdecode)
    rw [hexec, exec_of_busy (s := s.tick) hbusy, if_pos (wf_of_decode hdecode)]
    exact blockPhase_ne_fault (s := s.tick) hphases f

/-- No host access faults, in any state. -/
theorem hostAccess_ne_fault (a : HostAct) (s : State) (f : Fault) : hostAccess a s ≠ .fault f := by
  rcases hostAccess_cases a s with ⟨c, -, hcmd⟩ | ⟨r, h⟩ | h | ⟨v, -, -, h⟩ | ⟨k, v, -, -, -, h⟩ | ⟨d, -, h⟩
  · rw [hcmd]
    rcases hostWriteCmd_cases c s with ⟨-, h⟩ | ⟨-, -, h⟩ | ⟨hbusy, i, -, h⟩
    · simp [h]
    · simp [h]
    · simp [h, exec_of_not_busy (s := { s with cmd := c }) hbusy]
  all_goals simp [h]

/-- Settles O54: only the block's turn can fault, and the invariant gives it a phase to execute. -/
theorem goodStatesNeverFault : Obligations.GoodStatesNeverFault := by
  intro s f h
  rcases step_cases s with ⟨-, hstep⟩ | ⟨a, rest, -, hstep⟩ | ⟨rest, -, hstep⟩ | ⟨rest, -, -, hstep⟩ |
    ⟨rest, -, -, hstep⟩ | ⟨rest, -, hstep⟩ <;> rw [hstep]
  · exact h.blockTurn_ne_fault f
  · exact hostAccess_ne_fault a _ f
  · exact (h.modelFields rest _ _).blockTurn_ne_fault f
  · exact h.blockTurn_ne_fault f
  · exact hostAccess_ne_fault (.readReg 1) _ f
  · exact nofun

end Sys2Proof.Machine
end

section
/-! PROOF. Single host accesses and the reset input (spec/10_state.md R21 to R41, spec/20_memory.md R65 to R69,
spec/70_reset_and_hazards.md R320). -/

namespace Sys2Proof.Machine

/-! ### The layout of `STATUS` -/

theorem RunState.code_lt (r : RunState) : r.code < 4 := by cases r <;> decide

theorem Phase.code_lt (p : Phase) : p.code < 7 := by cases p <;> decide

/-- No field of `STATUS` reaches into the next (R23). -/
theorem Status.fields_lt (t : Status) :
    t.state.code < 4 ∧ t.phase.code < 7 ∧ t.vFrame1.toNat ≤ 1 ∧ t.vFilt.toNat ≤ 1 ∧ t.vGrad.toNat ≤ 1 ∧
      t.vConv.toNat ≤ 1 ∧ t.vOut0.toNat ≤ 1 ∧ t.vOut1.toNat ≤ 1 :=
  ⟨t.state.code_lt, t.phase.code_lt, Bool.toNat_le _, Bool.toNat_le _, Bool.toNat_le _, Bool.toNat_le _,
    Bool.toNat_le _, Bool.toNat_le _⟩

theorem Status.word_toNat (t : Status) :
    t.word.toNat = t.state.code + 2 ^ 2 * t.phase.code + 2 ^ 8 * t.vFrame1.toNat + 2 ^ 9 * t.vFilt.toNat
      + 2 ^ 10 * t.vGrad.toNat + 2 ^ 11 * t.vConv.toNat + 2 ^ 12 * t.vOut0.toNat + 2 ^ 13 * t.vOut1.toNat := by
  have hfields := t.fields_lt
  rw [Status.word, BitVec.toNat_ofNat]
  omega

/-- `STATUS` uses 14 bits (R21). -/
theorem Status.word_lt (t : Status) : t.word.toNat < 2 ^ 14 := by
  have hfields := t.fields_lt
  rw [t.word_toNat]
  omega

theorem extractLsb'_toNat_eq_div (v : Word) (start len : Nat) :
    (v.extractLsb' start len).toNat = v.toNat / 2 ^ start % 2 ^ len := by
  rw [BitVec.extractLsb'_toNat, Nat.shiftRight_eq_div_pow]

theorem extractLsb'_eq_zero {v : Word} {start len : Nat} (h : v.toNat / 2 ^ start % 2 ^ len = 0) :
    v.extractLsb' start len = 0 :=
  BitVec.eq_of_toNat_eq ((extractLsb'_toNat_eq_div v start len).trans (h.trans BitVec.toNat_zero.symm))

theorem getLsbD_eq_of_toNat {v : Word} {i : Nat} {b : Bool} (h : v.toNat / 2 ^ i % 2 = b.toNat) : v.getLsbD i = b := by
  rw [BitVec.getLsbD, Nat.testBit_eq_decide_div_mod_eq, h]
  cases b <;> rfl

/-- Settles O42: each field is a quotient and remainder of the word's number. -/
theorem statusWordLayout : Obligations.StatusWordLayout := by
  intro t
  have hword := t.word_toNat
  have hfields := t.fields_lt
  have hstate : (t.word.extractLsb' 0 2).toNat = t.state.code := by
    rw [extractLsb'_toNat_eq_div]
    omega
  have hphase : (t.word.extractLsb' 2 3).toNat = t.phase.code := by
    rw [extractLsb'_toNat_eq_div]
    omega
  refine ⟨hstate.trans ?_, hphase.trans ?_, extractLsb'_eq_zero ?_, getLsbD_eq_of_toNat ?_, getLsbD_eq_of_toNat ?_,
    getLsbD_eq_of_toNat ?_, getLsbD_eq_of_toNat ?_, getLsbD_eq_of_toNat ?_, getLsbD_eq_of_toNat ?_,
    extractLsb'_eq_zero ?_⟩
  · cases t.state <;> rfl
  · cases t.phase <;> rfl
  all_goals omega

/-! ### Registers -/

theorem step_of_access {s : State} {a : HostAct} {rest : List Turn} (hscript : s.script = .host a :: rest) :
    step s = hostAccess a { s with script := rest } := by
  simp only [step, transitionOf, hscript]

/-- The registers stand at the indices 0 to 9 (R21). -/
theorem RegName.exists_of_lt {k : Nat} (hk : k < 10) : ∃ r : RegName, r.index = k ∧ RegName.ofIndex k = some r := by
  interval_cases k <;> exact ⟨_, rfl, rfl⟩

/-- A host read of a register. -/
theorem step_readReg {s : State} {k : Nat} {rest : List Turn} (hk : k < 10)
    (hscript : s.script = .host (.readReg k) :: rest) :
    ∃ r : RegName, r.index = k ∧ step s = .next { s with
      script := rest, draws := s.draws + 1,
      readData := .word (hostRegValue ({ s with script := rest } : State).tick r) } := by
  obtain ⟨r, hr, hof⟩ := RegName.exists_of_lt hk
  refine ⟨r, hr, ?_⟩
  simp only [step, transitionOf, hscript, hostAccess, hostReadReg, hof]
  rfl

/-- A register holds a value of its used width (R21). -/
theorem State.readReg_lt (s : State) (r : RegName) : (s.readReg r).toNat < 2 ^ r.usedWidth := by
  cases r with
  | status => exact s.status.word_lt
  | err => cases h : s.err <;> simp [State.readReg, h, ErrCode.code, RegName.usedWidth]
  | variant => cases h : s.variant <;> simp [State.readReg, h, Variant.code, RegName.usedWidth]
  | width => exact (BitVec.toNat_setWidth_of_le (by decide)).trans_lt s.width.isLt
  | height => exact (BitVec.toNat_setWidth_of_le (by decide)).trans_lt s.height.isLt
  | maxval => exact (BitVec.toNat_setWidth_of_le (by decide)).trans_lt s.maxval.isLt
  | _ => exact BitVec.isLt _

/-- A host read returns a value of the register's used width, free or not. -/
theorem hostRegValue_lt (s : State) (r : RegName) : (hostRegValue s r).toNat < 2 ^ r.usedWidth := by
  unfold hostRegValue
  split
  · rw [BitVec.toNat_ofNat]
    exact (Nat.mod_le _ _).trans_lt (Nat.mod_lt _ (Nat.two_pow_pos _))
  · exact s.readReg_lt r

/-- Settles O43: the registers below index 4 are no result registers, so `BUSY` does not matter to them. -/
theorem registerReadsReturnTheirValue : Obligations.RegisterReadsReturnTheirValue := by
  intro s k rest hk hscript hbusy
  obtain ⟨r, rfl, hstep⟩ := step_readReg hk hscript
  have hvalue : hostRegValue ({ s with script := rest } : State).tick r = s.readReg r := by
    have hcurrent : ¬ (s.status.state = .busy ∧ r.isResult = true) := by
      rintro ⟨hb, hr⟩
      have hlow := hbusy hb
      cases r <;> simp_all [RegName.isResult, RegName.index]
    rw [hostRegValue, if_neg (by simpa using hcurrent)]
    rfl
  rw [hvalue] at hstep
  refine ⟨_, _, hstep, ?_⟩
  cases r with
  | err => cases h : s.err <;> simp [RegName.index, State.readReg, h, ErrCode.code]
  | variant => cases h : s.variant <;> simp [RegName.index, State.readReg, h, Variant.code]
  | _ => simp [RegName.index, State.readReg]

/-- Settles O44: the column of used widths is `RegName.usedWidth`. -/
theorem unusedRegisterBitsReadZero : Obligations.UnusedRegisterBitsReadZero := by
  intro s k rest hk hscript
  obtain ⟨r, rfl, hstep⟩ := step_readReg hk hscript
  have hwidth : [32, 14, 3, 32, 31, 31, 8, 2, 32, 32].getD r.index 0 = r.usedWidth := by cases r <;> rfl
  exact ⟨_, _, hstep, rfl, hwidth ▸ hostRegValue_lt _ r⟩

/-- Settles O45. The smaller of the two fits 32 bits because the written word does. -/
theorem inLenWriteSaturates : Obligations.InLenWriteSaturates := by
  intro s v rest hbusy hscript
  refine ⟨saturate s.params v, saturate_toNat _ _, ?_⟩
  rw [step_of_access hscript]
  simp [hostAccess, hostWriteReg, RegName.ofIndex, hostWriteInLen, hbusy]

/-! ### Buffers -/

/-- A host read inside the defined extent of a byte buffer returns its element (20 R65, R66). -/
theorem step_readByte_defined {s : State} {sp : ByteSpace} {k : Nat} {b : Byte} {rest : List Turn}
    (hbusy : s.status.state ≠ .busy) (hcap : k < capacity s.params sp) (hextent : k < s.definedExtent sp)
    (hread : Cells.read (s.mem.bytes sp) k = some b) (hscript : s.script = .host (.readByte sp k) :: rest) :
    step s = .next { s with script := rest, draws := s.draws + 1, readData := .byte b } := by
  have hvalue : hostByteValue ({ s with script := rest } : State).tick sp k = b := by
    have hextent' : k < ({ s with script := rest } : State).tick.definedExtent sp := by cases sp <;> exact hextent
    simp [hostByteValue, hbusy, hextent', State.byteAt, hread]
  rw [step_of_access hscript, hostAccess, hostReadByte, if_neg (Nat.not_le.2 hcap), hvalue]
  rfl

/-- The same for `CONV`. -/
theorem step_readConv_defined {s : State} {k : Nat} {v : Word} {rest : List Turn} (hbusy : s.status.state ≠ .busy)
    (hcap : k < s.params.maxPixels) (hextent : k < s.convExtent) (hread : Cells.read s.mem.conv k = some v)
    (hscript : s.script = .host (.readConv k) :: rest) :
    step s = .next { s with script := rest, draws := s.draws + 1, readData := .word v } := by
  have hvalue : hostConvValue ({ s with script := rest } : State).tick k = v := by
    have hextent' : k < ({ s with script := rest } : State).tick.convExtent := hextent
    simp [hostConvValue, hbusy, hextent', State.convAt, hread]
  rw [step_of_access hscript, hostAccess, hostReadConv, if_neg (Nat.not_le.2 hcap), hvalue]
  rfl

/-- A host write to `IN` (R35). -/
theorem step_writeInp {s : State} {k : Nat} {v : Byte} {rest : List Turn} (hbusy : s.status.state ≠ .busy)
    (hk : k < s.params.maxInBytes) (hscript : s.script = .host (.writeByte .inp k v) :: rest) :
    step s = .next { s with script := rest, mem := { s.mem with inp := Cells.write s.mem.inp k v } } := by
  rw [step_of_access hscript, hostAccess, hostWriteByte]
  simp [capacity, hk, hbusy]

/-- Settles O46: the whole of `IN` is its defined extent, so the read returns the element. -/
theorem inputByteReadsBack : Obligations.InputByteReadsBack := by
  intro s k v rest hbusy hk hscript
  have hwrite := step_writeInp hbusy hk hscript
  set t : State := { s with
    script := .host (.readByte .inp k) :: rest, mem := { s.mem with inp := Cells.write s.mem.inp k v } }
  have hread : Cells.read (t.mem.bytes .inp) k = some v := (Cells.read_write s.mem.inp k k v).trans (if_pos rfl)
  refine ⟨t, _, hwrite, step_readByte_defined (s := t) hbusy hk hk hread rfl, rfl, fun sp j hj => ?_, fun _ _ => rfl,
    rfl, ⟨rfl, rfl, rfl, rfl⟩, ⟨rfl, rfl⟩, rfl, rfl, rfl, rfl⟩
  cases sp with
  | inp => exact (Cells.read_write s.mem.inp k j v).trans (if_neg fun hkj => hj ⟨rfl, hkj.symm⟩)
  | _ => rfl

/-- An element that holds a value stands below the capacity. -/
theorem Cells.lt_of_below {w : Nat} {n k : Nat} {m : Cells w} {v : BitVec w} (hm : Cells.below n m = true)
    (hread : Cells.read m k = some v) : k < n := by
  induction m with
  | nil => cases hread
  | cons c m ih =>
    obtain ⟨a, x⟩ := c
    simp only [Cells.below, List.all_cons, Bool.and_eq_true, decide_eq_true_eq] at hm ih
    rw [Cells.read_cons] at hread
    split at hread
    · next ha => exact ha ▸ hm.1
    · exact ih hm.2 hread

theorem lt_ite_zero {c : Prop} [Decidable c] {k n : Nat} (h : k < if c then n else 0) : c ∧ k < n := by
  split at h
  · next hc => exact ⟨hc, h⟩
  · omega

/-- The defined extent of a result buffer holds values (R26, R36 to R38, R41). -/
theorem Inv.read_defined {s : State} (h : Inv s) {sp : ByteSpace} {k : Nat} (hsp : sp ≠ .inp)
    (hk : k < s.definedExtent sp) : ∃ b, Cells.read (s.mem.bytes sp) k = some b := by
  obtain ⟨hframe1, hfilt, hgrad, -, hout0, hout1⟩ := h.written
  rw [← Option.isSome_iff_exists]
  cases sp with
  | inp => exact absurd rfl hsp
  | frame1 => exact hframe1 (lt_ite_zero hk).1 k (lt_ite_zero hk).2
  | filt => exact hfilt (lt_ite_zero hk).1 k (lt_ite_zero hk).2
  | grad => exact hgrad (lt_ite_zero hk).1 k (lt_ite_zero hk).2
  | out0 => exact hout0 (lt_ite_zero hk).1 k (lt_ite_zero hk).2
  | out1 => exact hout1 (lt_ite_zero hk).1 k (lt_ite_zero hk).2

/-- Settles O47: a valid buffer was completely written, and within its capacity. -/
theorem definedElementsReadBack : Obligations.DefinedElementsReadBack := by
  intro s k rest h hbusy
  refine ⟨fun sp hscript hdefined => ?_, fun hscript hv hk => ?_⟩
  · have hextent : sp ≠ .inp ∧ k < s.definedExtent sp := by
      rcases hdefined with ⟨rfl, hv, hk⟩ | ⟨rfl, hv, hk⟩ | ⟨rfl, hv, hk⟩ | ⟨rfl, hv, hk⟩ | ⟨rfl, hv, hk⟩ <;>
        simp [State.definedExtent, hv, hk]
    obtain ⟨hsp, hk⟩ := hextent
    obtain ⟨b, hread⟩ := h.read_defined hsp hk
    have hcap := Cells.lt_of_below (Memory.below_bytes h.within sp) hread
    exact ⟨b, _, hread, step_readByte_defined hbusy hcap hk hread hscript⟩
  · obtain ⟨-, -, -, hconv, -⟩ := h.written
    obtain ⟨v, hread⟩ := Option.isSome_iff_exists.1 (hconv hv k hk)
    have hcap := Cells.lt_of_below ((Memory.within_iff _ _).1 h.within).2 hread
    have hextent : k < s.convExtent := by simpa [State.convExtent, hv] using hk
    exact ⟨v, _, hread, step_readConv_defined hbusy hcap hextent hread hscript⟩

/-- Settles O49, one case per kind of location. -/
theorem readOnlyLocationsIgnoreWrites : Obligations.ReadOnlyLocationsIgnoreWrites := by
  intro s a rest hexists hreadOnly hscript
  rw [step_of_access hscript]
  rcases hreadOnly with ⟨k, v, rfl, hcmd, hinLen⟩ | ⟨sp, k, v, rfl, hsp⟩ | ⟨k, v, rfl⟩
  · obtain ⟨r, rfl, hof⟩ := RegName.exists_of_lt (of_decide_eq_true hexists)
    simp only [hostAccess, hostWriteReg, hof]
    cases r <;> simp_all [RegName.index, onlyScript]
  · have hk : k < capacity s.params sp := of_decide_eq_true hexists
    cases sp <;> simp_all [hostAccess, hostWriteByte, onlyScript]
  · have hk : k < s.params.maxPixels := of_decide_eq_true hexists
    simp [hostAccess, hostWriteConv, hk, onlyScript]

/-! ### Reset -/

/-- Settles O51. -/
theorem resetFromEveryState : Obligations.ResetFromEveryState := by
  intro s rest hscript
  have hstep : step s = .next ({ s with script := rest } : State).resetEvent := by
    simp only [step, transitionOf, hscript]
  have hbytes : ∀ sp k, Cells.read (Memory.unspecified.bytes sp) k = none := by
    intro sp k
    cases sp <;> rfl
  exact ⟨_, hstep, rfl, rfl, rfl, rfl, rfl, rfl, ⟨rfl, rfl, rfl, rfl, rfl, rfl, rfl, rfl, rfl, rfl, rfl, rfl⟩, hbytes,
    fun _ => rfl, rfl, rfl⟩

end Sys2Proof.Machine
end

section
/-! PROOF. Which host accesses are refused, what a host read leaves unchanged, and who writes each buffer
(spec/20_memory.md R60, R65 to R67, R71). -/

namespace Sys2Proof.Machine

/-! ### Reads -/

/-- A host read of a location that exists returns a byte or a word and changes nothing of the block (R65). -/
theorem hostAccess_read {a : HostAct} {s : State} (hread : a.isWrite = false)
    (hexists : locationExists s.params a = true) :
    ∃ r, hostAccess a s = .next { s.tick with readData := r } ∧ r ≠ .empty := by
  cases a with
  | readReg k =>
    obtain ⟨r, -, hof⟩ := RegName.exists_of_lt (of_decide_eq_true hexists)
    exact ⟨.word (hostRegValue s.tick r), by simp only [hostAccess, hostReadReg, hof], nofun⟩
  | readByte sp k =>
    exact ⟨.byte (hostByteValue s.tick sp k), if_neg (Nat.not_le.2 (of_decide_eq_true hexists)), nofun⟩
  | readConv k =>
    exact ⟨.word (hostConvValue s.tick k), if_neg (Nat.not_le.2 (of_decide_eq_true hexists)), nofun⟩
  | writeReg k v | writeByte sp k v | writeConv k v => cases hread

/-- Settles O60: nothing in `hostAccess_read` asks for the block's state or the defined extent. -/
theorem hostReadsHaveNoSideEffect : Obligations.HostReadsHaveNoSideEffect := by
  intro s a rest hread hexists hscript
  obtain ⟨r, hnext, hr⟩ := hostAccess_read (s := { s with script := rest }) hread hexists
  exact ⟨s.draws + 1, r, (step_of_access hscript).trans hnext, hr⟩

/-! ### Refusals -/

/-- No register stands at an index from 10 on (R21). -/
theorem RegName.ofIndex_of_ge {k : Nat} (hk : 10 ≤ k) : RegName.ofIndex k = none := by
  obtain ⟨j, rfl⟩ := Nat.exists_eq_add_of_le' hk
  rfl

/-- An access to a location that does not exist is refused, `BUSY` or not (R66). -/
theorem hostAccess_refused {a : HostAct} {s : State} (hmissing : locationExists s.params a = false) :
    ∃ r, hostAccess a s = .refused r := by
  cases a with
  | readReg k =>
    have hnone := RegName.ofIndex_of_ge (Nat.not_lt.1 (of_decide_eq_false hmissing))
    exact ⟨.noSuchRegister k, by simp only [hostAccess, hostReadReg, hnone]⟩
  | writeReg k v =>
    have hnone := RegName.ofIndex_of_ge (Nat.not_lt.1 (of_decide_eq_false hmissing))
    exact ⟨.noSuchRegister k, by simp only [hostAccess, hostWriteReg, hnone]⟩
  | readByte sp k | writeByte sp k v | readConv k | writeConv k v =>
    exact ⟨.noSuchElement k, if_pos (Nat.not_lt.1 (of_decide_eq_false hmissing))⟩

theorem hostWriteCmd_not_refused (c : Word) (s : State) (r : Refusal) : hostWriteCmd c s ≠ .refused r := by
  rcases hostWriteCmd_cases c s with ⟨-, h⟩ | ⟨-, -, h⟩ | ⟨-, i, -, h⟩ <;> rw [h]
  · exact nofun
  · exact nofun
  · exact exec_not_refused i _ r

/-- An access to a location that exists is not refused. -/
theorem hostAccess_not_refused {a : HostAct} {s : State} (hexists : locationExists s.params a = true) (r : Refusal) :
    hostAccess a s ≠ .refused r := by
  cases a with
  | readReg k | readByte sp k | readConv k =>
    obtain ⟨d, hnext, -⟩ := hostAccess_read rfl hexists
    rw [hnext]
    exact nofun
  | writeReg k v =>
    obtain ⟨reg, -, hof⟩ := RegName.exists_of_lt (of_decide_eq_true hexists)
    simp only [hostAccess, hostWriteReg, hof]
    cases reg with
    | cmd => exact hostWriteCmd_not_refused v s r
    | _ => exact nofun
  | writeByte sp k v =>
    have hk : ¬ capacity s.params sp ≤ k := Nat.not_le.2 (of_decide_eq_true hexists)
    by_cases hbusy : s.status.state = .busy
    · simp [hostAccess, hostWriteByte, hk, hbusy]
    · cases sp <;> simp [hostAccess, hostWriteByte, hk, hbusy]
  | writeConv k v =>
    have hk : ¬ s.params.maxPixels ≤ k := Nat.not_le.2 (of_decide_eq_true hexists)
    simp [hostAccess, hostWriteConv, hk]

theorem blockTurn_not_refused (s : State) (r : Refusal) : blockTurn s ≠ .refused r := by
  rcases blockTurn_cases s with ⟨-, h⟩ | ⟨-, -, h⟩ | ⟨-, i, -, h⟩ <;> rw [h]
  · exact nofun
  · exact nofun
  · exact exec_not_refused i _ r

/-- A refused step is a host access. -/
theorem access_of_refused {s : State} {r : Refusal} (h : step s = .refused r) :
    ∃ a rest, s.script = .host a :: rest ∧ hostAccess a { s with script := rest } = .refused r := by
  rcases step_cases s with ⟨-, hstep⟩ | ⟨a, rest, hs, hstep⟩ | ⟨rest, -, hstep⟩ | ⟨rest, -, -, hstep⟩ |
    ⟨rest, -, -, hstep⟩ | ⟨rest, -, hstep⟩ <;> rw [hstep] at h
  · exact absurd h (blockTurn_not_refused _ r)
  · exact ⟨a, rest, hs, h⟩
  · exact absurd h (blockTurn_not_refused _ r)
  · exact absurd h (blockTurn_not_refused _ r)
  · exact absurd h (hostAccess_not_refused (a := .readReg 1) rfl r)
  · cases h

/-- Settles O50: only a host access can be refused, and its location alone decides. -/
theorem onlyMissingLocationsAreRefused : Obligations.OnlyMissingLocationsAreRefused := by
  refine fun s => ⟨fun ⟨r, hrefused⟩ => ?_, fun ⟨a, rest, hscript, hmissing⟩ => ?_⟩
  · obtain ⟨a, rest, hscript, haccess⟩ := access_of_refused hrefused
    refine ⟨a, rest, hscript, Bool.eq_false_iff.2 fun hexists => ?_⟩
    exact hostAccess_not_refused (s := { s with script := rest }) hexists r haccess
  · rw [step_of_access hscript]
    exact hostAccess_refused hmissing

/-! ### Writers -/

/-- Settles O57: a phase stores into its own buffer, a host write into `IN`, and no other event touches a buffer. -/
theorem eachBufferHasItsOwnWriter : Obligations.EachBufferHasItsOwnWriter := by
  intro s t h hreset
  cases event_of_step h with
  | reset rest hscript => exact absurd ⟨rest, hscript⟩ hreset
  | completed script i op later u hmoves hdecode hphases hrun =>
    simp only [performs_iff_of_phasesFrom hmoves hphases]
    rcases runPhase_completed hrun with ⟨rfl, img, -, rfl⟩ | ⟨rfl, rfl⟩ | ⟨src, rfl, rfl⟩ |
      ⟨src, dst, fmt, rfl | rfl, rfl⟩ | ⟨src, k, rfl, rfl⟩
    · simp [Memory.setBytes, PhaseOp.phase]
    · simp [phBlur, Memory.setBytes, PhaseOp.phase]
    · simp [phSobel, Memory.setBytes, PhaseOp.phase]
    · cases dst <;> simp [phEncode, dstSpace, Memory.setBytes, PhaseOp.phase]
    · obtain rfl := dst_of_encode2 hphases
      simp [phEncode, dstSpace, Memory.setBytes, PhaseOp.phase]
    · simp [phConvolve, PhaseOp.phase]
  | failed script e hmoves hphase hstream => simp [performs, hmoves, hphase, Memory.setBytes]
  | inp k v rest hbusy hk hscript => simp [hbusy, hscript]
  | quiet | inLen | clear | start | reject => simp

end Sys2Proof.Machine
end

section
/-! PROOF. Command words (spec/30_encoding.md R90 to R100): the encoder inverts the decoder, the legal words, and the
order of the checks. -/

namespace Sys2Proof.Machine

/-! ### A word and its fields -/

/-- A word is the sum of its six fields at their positions (R90). -/
theorem toNat_eq_fields (c : Word) :
    c.toNat = (opField c).toNat + 0x10 * (srcField c).toNat + 0x40 * (kField c).toNat + 0x100 * (binField c).toNat +
      0x200 * (dstField c).toNat + 0x400 * (zeroField c).toNat := by
  have hc := c.isLt
  simp only [opField, srcField, kField, binField, dstField, zeroField, BitVec.extractLsb'_toNat,
    Nat.shiftRight_eq_div_pow]
  omega

/-- A word without a reserved bit is the sum of the other fields. -/
theorem eq_ofNat_fields {c : Word} (hzero : zeroField c = 0) :
    c = BitVec.ofNat 32 ((opField c).toNat + 0x10 * (srcField c).toNat + 0x40 * (kField c).toNat +
      0x100 * (binField c).toNat + 0x200 * (dstField c).toNat) := by
  have hzero' : (zeroField c).toNat = 0 := congrArg BitVec.toNat hzero
  have hsum := toNat_eq_fields c
  rw [hzero', Nat.mul_zero, Nat.add_zero] at hsum
  rw [← hsum, BitVec.ofNat_toNat, BitVec.setWidth_eq]

/-! ### Operands -/

/-- A source operand has the code of its field (R92). -/
theorem srcOperand_code {f : BitVec 2} {src : Src} (h : srcOperand f = .ok src) : src.code = f.toNat := by
  unfold srcOperand at h
  split at h
  case h_4 => cases h
  all_goals
    cases h
    simp_all [Src.code]

/-- The same for the row of `SOBEL` (R97). -/
theorem sobelOperand_code {f : BitVec 2} {src : Src} (h : sobelOperand f = .ok src) : src.code = f.toNat := by
  unfold sobelOperand at h
  split at h
  case h_3 => cases h
  all_goals
    cases h
    simp_all [Src.code]

/-- A kernel operand has the code of its field (R93). -/
theorem kOperand_code {f : BitVec 2} {k : KIdx} (h : kOperand f = .ok k) : k.code = f.toNat := by
  unfold kOperand at h
  split at h
  case h_4 => cases h
  all_goals
    cases h
    simp_all [KIdx.code]

@[simp] theorem fmtOperand_code (f : BitVec 1) : (fmtOperand f).code = f.toNat := by
  revert f
  decide

@[simp] theorem dstOperand_code (f : BitVec 1) : (dstOperand f).code = f.toNat := by
  revert f
  decide

/-! ### The two directions -/

/-- The word of a command the decoder answers is the word it read. -/
theorem encode_of_decode {c : Word} {i : Instr} (h : decode c = .ok i) : encode i = c := by
  obtain ⟨hzero, hop⟩ := decodeOp_of_decode h
  rw [eq_ofNat_fields hzero]
  unfold decodeOp at hop
  split at hop
  case h_1 hcode | h_2 hcode | h_3 hcode =>
    obtain ⟨rfl, hsrc, hk, hbin, hdst⟩ := noOperand_eq_ok hop
    simp [encode, hcode, hsrc, hk, hbin, hdst]
  case h_4 hcode =>
    simp only [decodeSobel, except_bind_eq_ok_iff, unused_eq_ok_iff, pure, Except.pure, Except.ok.injEq] at hop
    obtain ⟨src, hsrc, -, hk, -, hbin, -, hdst, rfl⟩ := hop
    simp [encode, hcode, sobelOperand_code hsrc, hk, hbin, hdst]
  case h_5 hcode =>
    simp only [decodeEncode, except_bind_eq_ok_iff, unused_eq_ok_iff, pure, Except.pure, Except.ok.injEq] at hop
    obtain ⟨src, hsrc, -, hk, rfl⟩ := hop
    simp [encode, hcode, srcOperand_code hsrc, hk]
  case h_6 hcode =>
    simp only [decodeConvolve, except_bind_eq_ok_iff, unused_eq_ok_iff, pure, Except.pure, Except.ok.injEq] at hop
    obtain ⟨src, hsrc, k, hk, -, hbin, -, hdst, rfl⟩ := hop
    simp [encode, hcode, srcOperand_code hsrc, kOperand_code hk, hbin, hdst]
  case h_7 hcode =>
    simp only [decodeProcess, except_bind_eq_ok_iff, unused_eq_ok_iff, pure, Except.pure, Except.ok.injEq] at hop
    obtain ⟨-, hsrc, -, hk, -, hdst, rfl⟩ := hop
    simp [encode, hcode, hsrc, hk, hdst]
  case h_8 => cases hop

/-- The 28 commands of the block, in the order of their words (spec/95_test_vectors.md section 2.7). -/
def commands : List Instr :=
  [.clear, .decode, .blur,
    .sobel .frame1, .encode .frame1 .out0 .text, .convolve .frame1 .gauss5, .process .text,
    .sobel .filt, .encode .filt .out0 .text, .convolve .filt .gauss5,
    .encode .grad .out0 .text, .convolve .grad .gauss5,
    .convolve .frame1 .sobelx, .convolve .filt .sobelx, .convolve .grad .sobelx,
    .convolve .frame1 .sobely, .convolve .filt .sobely, .convolve .grad .sobely,
    .encode .frame1 .out0 .bin, .process .bin, .encode .filt .out0 .bin, .encode .grad .out0 .bin,
    .encode .frame1 .out1 .text, .encode .filt .out1 .text, .encode .grad .out1 .text,
    .encode .frame1 .out1 .bin, .encode .filt .out1 .bin, .encode .grad .out1 .bin]

/-- The list names every well-formed command. -/
theorem mem_commands_of_wf {i : Instr} (h : i.wf = true) : i ∈ commands := by
  cases i with
  | clear | decode | blur => decide
  | sobel src =>
    cases src with
    | frame1 | filt => decide
    | grad => cases h
  | encode src dst fmt => cases src <;> cases dst <;> cases fmt <;> decide
  | convolve src k => cases src <;> cases k <;> decide
  | process fmt => cases fmt <;> decide

theorem decode_encode_of_mem_commands : ∀ i ∈ commands, decode (encode i) = .ok i := by decide

/-- Every well-formed command decodes from its word. -/
theorem decode_encode {i : Instr} (h : i.wf = true) : decode (encode i) = .ok i :=
  decode_encode_of_mem_commands i (mem_commands_of_wf h)

/-- Settles O1: one direction reads the fields of the word back, the other runs the decoder on the 28 commands. -/
theorem decodeAndEncodeAreInverse : Obligations.DecodeAndEncodeAreInverse := by
  intro c i
  constructor
  · exact fun h => ⟨wf_of_decode h, encode_of_decode h⟩
  · rintro ⟨hwf, rfl⟩
    exact decode_encode hwf

/-- Settles O2: the listed words are those of the 28 commands. -/
theorem legalWordsAreExactlyTheListed : Obligations.LegalWordsAreExactlyTheListed := by
  intro c
  have hwords : commands.map (fun i => (encode i).toNat) =
      [0x000, 0x001, 0x002, 0x003, 0x004, 0x005, 0x006, 0x013, 0x014, 0x015, 0x024, 0x025, 0x045, 0x055, 0x065, 0x085,
        0x095, 0x0A5, 0x104, 0x106, 0x114, 0x124, 0x204, 0x214, 0x224, 0x304, 0x314, 0x324] := by decide
  rw [← hwords, List.mem_map]
  constructor
  · rintro ⟨i, h⟩
    exact ⟨i, mem_commands_of_wf (wf_of_decode h), congrArg _ (encode_of_decode h)⟩
  · rintro ⟨i, hi, hword⟩
    exact ⟨i, BitVec.eq_of_toNat_eq hword ▸ decode_encode_of_mem_commands i hi⟩

/-- Settles O4: each example word is the encoding of the command it spells. -/
theorem exampleWordsDecode : Obligations.ExampleWordsDecode := by
  refine ⟨?_, ?_, ?_, ?_, ?_, ?_, ?_, ?_⟩ <;> exact (decodeAndEncodeAreInverse _ _).2 ⟨rfl, rfl⟩

/-! ### The order of the checks -/

@[simp] theorem unused_zero {w : Nat} (e : DecodeError) : unused (0#w) e = .ok () := if_pos rfl

theorem unused_of_ne_zero {w : Nat} {f : BitVec w} (h : f ≠ 0) (e : DecodeError) : unused f e = .error e := if_neg h

/-- The first check that fails is the answer. -/
@[simp] theorem except_error_bind {ε α β : Type} (e : ε) (f : α → Except ε β) : (Except.error e >>= f) = .error e := rfl

/-- A check that passes leaves the answer to the checks after it. -/
@[simp] theorem except_ok_bind {ε α β : Type} (a : α) (f : α → Except ε β) : (Except.ok a >>= f) = f a := rfl

/-- `SRC` = 3 is reserved (R92). -/
theorem srcOperand_of_eq_three {f : BitVec 2} (h : f.toNat = 3) : srcOperand f = .error .illegalSrc := by
  simp [srcOperand, h]

theorem srcOperand_of_lt_three {f : BitVec 2} (h : f.toNat < 3) : ∃ src, srcOperand f = .ok src := by
  obtain h | h | h : f.toNat = 0 ∨ f.toNat = 1 ∨ f.toNat = 2 := by omega
  all_goals simp [srcOperand, h]

/-- The row of `SOBEL` admits `SRC` 0 and 1 only (R97). -/
theorem sobelOperand_of_two_le {f : BitVec 2} (h : 2 ≤ f.toNat) : sobelOperand f = .error .illegalSrc := by
  obtain ⟨n, hn⟩ := Nat.exists_eq_add_of_le' h
  simp [sobelOperand, hn]

theorem sobelOperand_of_lt_two {f : BitVec 2} (h : f.toNat < 2) : ∃ src, sobelOperand f = .ok src := by
  obtain h | h : f.toNat = 0 ∨ f.toNat = 1 := by omega
  all_goals simp [sobelOperand, h]

/-- `K` = 3 is reserved (R93). -/
theorem kOperand_of_eq_three {f : BitVec 2} (h : f.toNat = 3) : kOperand f = .error .illegalK := by
  simp [kOperand, h]

theorem kOperand_of_lt_three {f : BitVec 2} (h : f.toNat < 3) : ∃ k, kOperand f = .ok k := by
  obtain h | h | h : f.toNat = 0 ∨ f.toNat = 1 ∨ f.toNat = 2 := by omega
  all_goals simp [kOperand, h]

/-- A word without a reserved bit goes to the row of its `OP` (R91). -/
theorem decode_eq_decodeOp {c : Word} (hzero : zeroField c = 0) : decode c = decodeOp c := if_pos hzero

/-- `OP` 7 to 15 is reserved (R91). -/
theorem decodeOp_of_seven_le {c : Word} (h : 7 ≤ (opField c).toNat) : decodeOp c = .error .reservedOp := by
  obtain ⟨n, hn⟩ := Nat.exists_eq_add_of_le' h
  simp [decodeOp, hn]

/-- `CLEAR`, `DECODE` and `BLUR` make the same checks. -/
theorem decodeOp_of_lt_three {c : Word} (h : (opField c).toNat < 3) : ∃ i, decodeOp c = noOperand c i := by
  obtain h | h | h : (opField c).toNat = 0 ∨ (opField c).toNat = 1 ∨ (opField c).toNat = 2 := by omega
  · exact ⟨.clear, by simp [decodeOp, h]⟩
  · exact ⟨.decode, by simp [decodeOp, h]⟩
  · exact ⟨.blur, by simp [decodeOp, h]⟩

/-- The rows of R97 that use no field: the first field that is not 0 decides. -/
theorem noOperand_checks (c : Word) (i : Instr) :
    (srcField c ≠ 0 → noOperand c i = .error .illegalSrc) ∧
    (srcField c = 0 → kField c ≠ 0 → noOperand c i = .error .illegalK) ∧
    (srcField c = 0 → kField c = 0 → binField c ≠ 0 → noOperand c i = .error .illegalBin) ∧
    (srcField c = 0 → kField c = 0 → binField c = 0 → dstField c ≠ 0 → noOperand c i = .error .illegalDst) := by
  unfold noOperand
  refine ⟨fun hsrc => ?_, fun hsrc hk => ?_, fun hsrc hk hbin => ?_, fun hsrc hk hbin hdst => ?_⟩
  · simp [unused_of_ne_zero hsrc]
  · simp [hsrc, unused_of_ne_zero hk]
  · simp [hsrc, hk, unused_of_ne_zero hbin]
  · simp [hsrc, hk, hbin, unused_of_ne_zero hdst]

/-- The row of `SOBEL`. -/
theorem decodeSobel_checks (c : Word) :
    (2 ≤ (srcField c).toNat → decodeSobel c = .error .illegalSrc) ∧
    ((srcField c).toNat < 2 → kField c ≠ 0 → decodeSobel c = .error .illegalK) ∧
    ((srcField c).toNat < 2 → kField c = 0 → binField c ≠ 0 → decodeSobel c = .error .illegalBin) ∧
    ((srcField c).toNat < 2 → kField c = 0 → binField c = 0 → dstField c ≠ 0 → decodeSobel c = .error .illegalDst) := by
  unfold decodeSobel
  refine ⟨fun hsrc => by simp [sobelOperand_of_two_le hsrc], fun hsrc hk => ?_, fun hsrc hk hbin => ?_,
    fun hsrc hk hbin hdst => ?_⟩ <;> obtain ⟨src, hsrc⟩ := sobelOperand_of_lt_two hsrc
  · simp [hsrc, unused_of_ne_zero hk]
  · simp [hsrc, hk, unused_of_ne_zero hbin]
  · simp [hsrc, hk, hbin, unused_of_ne_zero hdst]

/-- The row of `ENCODE`. -/
theorem decodeEncode_checks (c : Word) :
    ((srcField c).toNat = 3 → decodeEncode c = .error .illegalSrc) ∧
    ((srcField c).toNat < 3 → kField c ≠ 0 → decodeEncode c = .error .illegalK) := by
  unfold decodeEncode
  refine ⟨fun hsrc => by simp [srcOperand_of_eq_three hsrc], fun hsrc hk => ?_⟩
  obtain ⟨src, hsrc⟩ := srcOperand_of_lt_three hsrc
  simp [hsrc, unused_of_ne_zero hk]

/-- The row of `CONVOLVE`. -/
theorem decodeConvolve_checks (c : Word) :
    ((srcField c).toNat = 3 → decodeConvolve c = .error .illegalSrc) ∧
    ((srcField c).toNat < 3 → (kField c).toNat = 3 → decodeConvolve c = .error .illegalK) ∧
    ((srcField c).toNat < 3 → (kField c).toNat < 3 → binField c ≠ 0 → decodeConvolve c = .error .illegalBin) ∧
    ((srcField c).toNat < 3 → (kField c).toNat < 3 → binField c = 0 → dstField c ≠ 0 →
      decodeConvolve c = .error .illegalDst) := by
  unfold decodeConvolve
  refine ⟨fun hsrc => by simp [srcOperand_of_eq_three hsrc], fun hsrc hk => ?_, fun hsrc hk hbin => ?_,
    fun hsrc hk hbin hdst => ?_⟩ <;> obtain ⟨src, hsrc⟩ := srcOperand_of_lt_three hsrc
  · simp [hsrc, kOperand_of_eq_three hk]
  · obtain ⟨k, hk⟩ := kOperand_of_lt_three hk
    simp [hsrc, hk, unused_of_ne_zero hbin]
  · obtain ⟨k, hk⟩ := kOperand_of_lt_three hk
    simp [hsrc, hk, hbin, unused_of_ne_zero hdst]

/-- The row of `PROCESS`. -/
theorem decodeProcess_checks (c : Word) :
    (srcField c ≠ 0 → decodeProcess c = .error .illegalSrc) ∧
    (srcField c = 0 → kField c ≠ 0 → decodeProcess c = .error .illegalK) ∧
    (srcField c = 0 → kField c = 0 → dstField c ≠ 0 → decodeProcess c = .error .illegalDst) := by
  unfold decodeProcess
  refine ⟨fun hsrc => ?_, fun hsrc hk => ?_, fun hsrc hk hdst => ?_⟩
  · simp [unused_of_ne_zero hsrc]
  · simp [hsrc, unused_of_ne_zero hk]
  · simp [hsrc, hk, unused_of_ne_zero hdst]

/-- Settles O3: `ZERO`, then `OP`, then the checks of the row `OP` selects. -/
theorem firstFailingCheckDecides : Obligations.FirstFailingCheckDecides := by
  intro c
  refine ⟨fun hzero => if_neg hzero, fun hzero hop => ?_, fun hzero hop => ?_, fun hzero hop => ?_, fun hzero hop => ?_,
    fun hzero hop => ?_, fun hzero hop => ?_⟩ <;> rw [decode_eq_decodeOp hzero]
  · exact decodeOp_of_seven_le hop
  · obtain ⟨i, hrow⟩ := decodeOp_of_lt_three hop
    exact hrow ▸ noOperand_checks c i
  · have hrow : decodeOp c = decodeSobel c := by simp [decodeOp, hop]
    exact hrow ▸ decodeSobel_checks c
  · have hrow : decodeOp c = decodeEncode c := by simp [decodeOp, hop]
    exact hrow ▸ decodeEncode_checks c
  · have hrow : decodeOp c = decodeConvolve c := by simp [decodeOp, hop]
    exact hrow ▸ decodeConvolve_checks c
  · have hrow : decodeOp c = decodeProcess c := by simp [decodeOp, hop]
    exact hrow ▸ decodeProcess_checks c

/-! ### The term that no word encodes -/

/-- Raising an error changes `STATE`, `PHASE` and `ERR` only (60 R296). -/
theorem State.raise_frame (s : State) (e : ErrCode) :
    sameInputs s (s.raise e) ∧ sameHeader s (s.raise e) ∧ sameLengths s (s.raise e) ∧ sameValid s (s.raise e) ∧
      sameBytes noByte s (s.raise e) ∧ sameConvFrom 0 s (s.raise e) := by
  simp [sameInputs, sameHeader, sameLengths, sameValid, sameBytes, sameConvFrom]

/-- Settles O12: `SOBEL GRAD` is not well-formed, so a block that is not `BUSY` raises `IllegalCommandError`. -/
theorem sobelOfGradIsIllegal : Obligations.SobelOfGradIsIllegal := by
  intro s hbusy
  refine ⟨s.raise .illegalCommand, ?_, rfl, rfl, rfl, s.raise_frame .illegalCommand⟩
  rw [exec_of_not_busy hbusy]
  rfl

end Sys2Proof.Machine
end

section
/-! PROOF. Decimal numbers (spec/30_encoding.md R109, R112): the value of a digit string, read from either end, and the
shortest spelling of a number. -/

namespace Sys2Proof.Machine

/-! ### The value of a digit string -/

/-- One more digit at the end. -/
theorem digitsValue_append_singleton (l : List Byte) (b : Byte) :
    digitsValue (l ++ [b]) = 10 * digitsValue l + (b.toNat - 0x30) := by
  have hshift : ∀ k ∈ List.range l.length,
      (((l ++ [b]).getD k 0).toNat - 0x30) * 10 ^ (l.length - k) =
        10 * (((l.getD k 0).toNat - 0x30) * 10 ^ (l.length - 1 - k)) := by
    intro k hk
    have hk : k < l.length := List.mem_range.1 hk
    have hpow : l.length - k = (l.length - 1 - k) + 1 := by omega
    rw [List.getD_append _ _ _ _ hk, hpow, pow_succ]
    ring
  simp only [digitsValue, List.length_append, List.length_singleton, Nat.add_sub_cancel, List.range_succ,
    List.map_append, List.sum_append]
  rw [List.map_congr_left hshift, List.sum_map_mul_left]
  simp

/-- The value accumulates from the left, as the decode unit reads it (40 R134). -/
theorem digitsValue_eq_foldl (l : List Byte) :
    digitsValue l = l.foldl (fun v b => 10 * v + (b.toNat - 0x30)) 0 := by
  induction l using List.reverseRecOn with
  | nil => rfl
  | append_singleton l b ih => rw [digitsValue_append_singleton, List.foldl_append, ih, List.foldl_cons, List.foldl_nil]

/-- One more digit at the end of digits makes a digit string. -/
theorem digitString_append_singleton {l : List Byte} {b : Byte} (hl : ∀ x ∈ l, digitByte x) (hb : digitByte b) :
    digitString (l ++ [b]) (10 * digitsValue l + (b.toNat - 0x30)) :=
  ⟨by simp, List.forall_mem_append.2 ⟨hl, by simpa using hb⟩, digitsValue_append_singleton l b⟩

/-! ### The shortest spelling -/

theorem toNat_digit (n : Nat) : (BitVec.ofNat 8 (0x30 + n % 10)).toNat = 0x30 + n % 10 := by
  rw [BitVec.toNat_ofNat]
  omega

/-- With fuel above the number, its decimal digits. -/
theorem digitString_decDigits {fuel n : Nat} (h : n < fuel) : digitString (decDigits fuel n) n := by
  induction fuel generalizing n with
  | zero => omega
  | succ fuel ih =>
    have hlast : digitByte (BitVec.ofNat 8 (0x30 + n % 10)) := by
      unfold digitByte
      rw [toNat_digit]
      omega
    obtain ⟨front, hfront, hdigits, hvalue⟩ : ∃ front,
        decDigits (fuel + 1) n = front ++ [BitVec.ofNat 8 (0x30 + n % 10)] ∧
          (∀ b ∈ front, digitByte b) ∧ digitsValue front = n / 10 := by
      refine ⟨_, rfl, ?_⟩
      split
      · next hn => exact ⟨by simp, hn.symm⟩
      · next hn => exact (ih (by omega)).2
    have hn : 10 * digitsValue front + ((BitVec.ofNat 8 (0x30 + n % 10)).toNat - 0x30) = n := by
      rw [toNat_digit, hvalue]
      omega
    have hstring := digitString_append_singleton hdigits hlast
    rwa [hn, ← hfront] at hstring

/-- Only 0 has a leading zero. -/
theorem eq_zero_of_head?_decDigits {fuel n : Nat} (h : n < fuel) (hhead : (decDigits fuel n).head? = some 0x30#8) :
    n = 0 := by
  induction fuel generalizing n with
  | zero => omega
  | succ fuel ih =>
    rw [decDigits] at hhead
    by_cases hn : n / 10 = 0
    · rw [if_pos hn] at hhead
      have hdigit : 0x30 + n % 10 = 0x30 := (toNat_digit n).symm.trans (congrArg BitVec.toNat (Option.some.inj hhead))
      omega
    · have hfuel : n / 10 < fuel := by omega
      obtain ⟨hne, -⟩ := digitString_decDigits hfuel
      rw [if_neg hn, List.head?_append_of_ne_nil _ hne] at hhead
      exact absurd (ih hfuel hhead) hn

/-- `dec n` is a digit string of the value `n`. -/
theorem digitString_dec (n : Nat) : digitString (dec n) n := digitString_decDigits n.lt_succ_self

/-- Settles O35, by induction on the digits from the last to the first. -/
theorem decIsTheShortestSpelling : Obligations.DecIsTheShortestSpelling := by
  intro n
  refine ⟨digitString_dec n, fun hhead => ?_⟩
  obtain rfl := eq_zero_of_head?_decDigits n.lt_succ_self hhead
  exact ⟨rfl, rfl⟩

end Sys2Proof.Machine
end

section
/-! PROOF. The decode unit accepts every graymap stream (spec/40_graymap_decoder.md R130 to R149): each of its routines
consumes the part of the grammar of spec/30_encoding.md R104 to R116 that it is for, and answers what that part says. -/

namespace Sys2Proof.Machine

/-! ### Bytes -/

theorem isDigit_iff (b : Byte) : isDigit b = true ↔ digitByte b := by
  simp [isDigit, digitByte]

theorem ws_iff (b : Byte) : ws b = true ↔ wsByte b := by
  simp [ws, wsByte, ← BitVec.toNat_inj, or_assoc]

/-- The first byte, if there is one, is no digit. -/
def noDigitFirst (l : List Byte) : Prop := ∀ b ∈ l.head?, isDigit b = false

/-- The first byte, if there is one, begins neither whitespace nor a comment. -/
def noGapFirst (l : List Byte) : Prop := ∀ b ∈ l.head?, ws b = false ∧ b ≠ 0x23#8

theorem isDigit_of_ws {b : Byte} (h : ws b = true) : isDigit b = false := by
  revert b
  decide

theorem noDigitFirst_of_ws {b : Byte} (h : ws b = true) (l : List Byte) : noDigitFirst (b :: l) := by
  simpa [noDigitFirst] using isDigit_of_ws h

theorem ws_of_isDigit {b : Byte} (h : isDigit b = true) : ws b = false ∧ b ≠ 0x23#8 := by
  revert b
  decide

/-! ### Gaps -/

/-- A comment ends at its line feed (R107). -/
theorem skipGap_comment {text : List Byte} (h : 0x0A#8 ∉ text) (l : List Byte) :
    skipGap true (text ++ 0x0A#8 :: l) = skipGap false l := by
  induction text with
  | nil => rfl
  | cons b text ih =>
    obtain ⟨hb, htext⟩ := not_or.1 (mt List.mem_cons.2 h)
    have hb : (b != 0x0A#8) = true := by simpa using Ne.symm hb
    rw [List.cons_append, skipGap, if_pos rfl, hb, ih htext]

theorem skipGap_gapItem {item : List Byte} (h : gapItem item) (l : List Byte) :
    skipGap false (item ++ l) = skipGap false l := by
  rcases h with ⟨b, hb, rfl⟩ | ⟨text, htext, rfl⟩
  · simp [skipGap, (ws_iff b).2 hb]
  · have hhash : ws 0x23#8 = false := rfl
    simp [skipGap, hhash, skipGap_comment htext]

theorem skipGap_flatten {items : List (List Byte)} (h : ∀ x ∈ items, gapItem x) (l : List Byte) :
    skipGap false (items.flatten ++ l) = skipGap false l := by
  induction items with
  | nil => rfl
  | cons item items ih =>
    obtain ⟨hitem, hitems⟩ := List.forall_mem_cons.1 h
    rw [List.flatten_cons, List.append_assoc, skipGap_gapItem hitem, ih hitems]

theorem skipGap_of_noGapFirst {l : List Byte} (h : noGapFirst l) : skipGap false l = l := by
  cases l with
  | nil => rfl
  | cons b l =>
    obtain ⟨hws, hhash⟩ := h b rfl
    simp [skipGap, hws, hhash]

/-- A gap begins with whitespace or `#`. -/
theorem gapBytes_first {g : List Byte} (h : gapBytes g) : ∃ b rest, g = b :: rest ∧ (ws b = true ∨ b = 0x23#8) := by
  obtain ⟨items, hne, hitems, rfl⟩ := h
  obtain ⟨item, items, rfl⟩ := List.exists_cons_of_ne_nil hne
  rcases hitems item (by simp) with ⟨b, hb, rfl⟩ | ⟨text, -, rfl⟩
  · exact ⟨b, _, rfl, .inl ((ws_iff b).2 hb)⟩
  · exact ⟨0x23#8, _, rfl, .inr rfl⟩

/-- No digit follows the digits before a gap. -/
theorem noDigitFirst_gap {g : List Byte} (h : gapBytes g) (l : List Byte) : noDigitFirst (g ++ l) := by
  obtain ⟨b, rest, rfl, hb | rfl⟩ := gapBytes_first h
  · exact noDigitFirst_of_ws hb _
  · simp [noDigitFirst, isDigit]

/-- `gap()` consumes a gap (R108, R133). -/
theorem gap_append {g l : List Byte} (hg : gapBytes g) (hl : noGapFirst l) : gap (g ++ l) = .ok l := by
  obtain ⟨b, rest, hcons, hb⟩ := gapBytes_first hg
  obtain ⟨items, -, hitems, hflat⟩ := hg
  have hskip : skipGap false (g ++ l) = l := by rw [hflat, skipGap_flatten hitems, skipGap_of_noGapFirst hl]
  rw [hcons, List.cons_append] at hskip ⊢
  rw [gap, if_pos (by simpa using hb), hskip]

/-! ### Numbers -/

/-- All digits up to the first other byte are read (R109). -/
theorem readDigits_append {d l : List Byte} (hd : ∀ b ∈ d, digitByte b) (hl : noDigitFirst l) (v : Nat) :
    readDigits v (d ++ l) = (d.foldl (fun v b => 10 * v + (b.toNat - 0x30)) v, l) := by
  induction d generalizing v with
  | nil =>
    cases l with
    | nil => rfl
    | cons b l => simp [readDigits, hl b rfl]
  | cons b d ih =>
    obtain ⟨hb, hd⟩ := List.forall_mem_cons.1 hd
    rw [List.cons_append, readDigits, if_pos ((isDigit_iff b).2 hb), ih hd, List.foldl_cons]

/-- A digit string is read as its value (R112). -/
theorem readDigits_digitString {d l : List Byte} {v : Nat} (hd : digitString d v) (hl : noDigitFirst l) :
    readDigits 0 (d ++ l) = (v, l) := by
  obtain ⟨-, hdigits, rfl⟩ := hd
  rw [readDigits_append hdigits hl, digitsValue_eq_foldl]

/-- A digit string begins with a digit. -/
theorem digitString_first {d : List Byte} {v : Nat} (h : digitString d v) :
    ∃ b rest, d = b :: rest ∧ isDigit b = true := by
  obtain ⟨hne, hdigits, -⟩ := h
  obtain ⟨b, rest, rfl⟩ := List.exists_cons_of_ne_nil hne
  exact ⟨b, rest, rfl, (isDigit_iff b).2 (hdigits b (by simp))⟩

theorem digits_append {d l : List Byte} {v : Nat} (hd : digitString d v) (hl : noDigitFirst l) :
    digits (d ++ l) = .ok (v, l) := by
  have hread := readDigits_digitString hd hl
  obtain ⟨b, rest, rfl, hb⟩ := digitString_first hd
  rw [List.cons_append] at hread ⊢
  rw [digits, if_pos hb, hread]

theorem beq_minus_of_isDigit {b : Byte} (h : isDigit b = true) : (b == 0x2D#8) = false := by
  revert b
  decide

/-- `hint()` reads a header integer (R109, R134). -/
theorem hint_append {a l : List Byte} {v : Int} (ha : headerInt a v) (hl : noDigitFirst l) :
    hint (a ++ l) = .ok (v, l) := by
  rcases ha with ⟨n, hd, rfl⟩ | ⟨d, n, rfl, hd, rfl⟩
  · have hdigits := digits_append hd hl
    obtain ⟨b, rest, rfl, hb⟩ := digitString_first hd
    have hminus : (b == 0x2D#8) = false := beq_minus_of_isDigit hb
    rw [List.cons_append] at hdigits ⊢
    rw [hint, hminus, hdigits]
    rfl
  · rw [List.cons_append, hint, digits_append hd hl]
    rfl

/-- No whitespace and no comment begins a header integer. -/
theorem noGapFirst_headerInt {a : List Byte} {v : Int} (ha : headerInt a v) (l : List Byte) : noGapFirst (a ++ l) := by
  rcases ha with ⟨n, hd, rfl⟩ | ⟨d, n, rfl, hd, rfl⟩
  · obtain ⟨b, rest, rfl, hb⟩ := digitString_first hd
    simpa [noGapFirst] using ws_of_isDigit hb
  · simp [noGapFirst, ws]

/-! ### The header -/

/-- The two magic tokens differ (00 R8), so each selects its own variant (R105, R132). -/
theorem magic_append {p : Params} (hp : p.magicBin ≠ p.magicText) (fmt : Fmt) (l : List Byte) :
    magic p (magicBytes p fmt ++ l) = .ok (fmt, l) := by
  cases fmt with
  | bin => simp [magic, magicBytes]
  | text => simp [magic, magicBytes, hp.symm]

theorem headerEnd_of_headerTail {tail area : List Byte} (h : headerTail tail area) :
    headerEnd tail = .ok area ∧ noDigitFirst tail := by
  rcases h with ⟨rfl, rfl⟩ | ⟨b, hb, rfl⟩
  · exact ⟨rfl, by simp [noDigitFirst]⟩
  · have hws := (ws_iff b).2 hb
    exact ⟨by simp [headerEnd, hws], noDigitFirst_of_ws hws area⟩

/-- The header of a well-formed stream is read as it is (R104 to R110, R132 to R136). -/
theorem readHeader_of_headedStream {p : Params} (hp : p.magicBin ≠ p.magicText) {fmt : Fmt} {w h m : Int}
    {area stream : List Byte} (hs : headedStream p fmt w h m area stream) :
    readHeader p stream = .ok { fmt, width := w, height := h, maxval := m, area } := by
  obtain ⟨hdr, tail, ⟨g1, a, g2, b, g3, c, hg1, ha, hg2, hb, hg3, hc, rfl⟩, htail, rfl⟩ := hs
  obtain ⟨hend, hlast⟩ := headerEnd_of_headerTail htail
  simp only [List.append_assoc, readHeader, magic_append hp, except_ok_bind]
  rw [gap_append hg1 (noGapFirst_headerInt ha _), except_ok_bind,
    hint_append ha (noDigitFirst_gap hg2 _), except_ok_bind,
    gap_append hg2 (noGapFirst_headerInt hb _), except_ok_bind,
    hint_append hb (noDigitFirst_gap hg3 _), except_ok_bind,
    gap_append hg3 (noGapFirst_headerInt hc _), except_ok_bind,
    hint_append hc hlast, except_ok_bind, hend, except_ok_bind]
  rfl

/-- A header within the bounds of R140, R141 and R146 passes the checks. -/
theorem checkHeader_of_bounds {p : Params} {h : Header} (hw : 0 < h.width) (hh : 0 < h.height) (hm : 0 ≤ h.maxval)
    (hm' : h.maxval ≤ 255) (hsize : h.width * h.height ≤ p.maxPixels) : checkHeader p h = .ok () := by
  rw [checkHeader, if_neg (by omega), if_neg (by omega), if_neg (by omega)]

/-! ### The samples -/

/-- The binary samples are the first bytes of the area, whatever follows (R111, R115, R147). -/
theorem binarySamples_append {m : Nat} {samples : List Byte} (h : ∀ b ∈ samples, b.toNat ≤ m) (trailer : List Byte) :
    binarySamples samples.length m (samples ++ trailer) = .ok samples := by
  simpa [binarySamples] using h

theorem skipWs_append {g l : List Byte} (hg : ∀ b ∈ g, wsByte b) (hl : noGapFirst l) : skipWs (g ++ l) = l := by
  induction g with
  | nil =>
    cases l with
    | nil => rfl
    | cons b l => simp [skipWs, (hl b rfl).1]
  | cons b g ih =>
    obtain ⟨hb, hg⟩ := List.forall_mem_cons.1 hg
    rw [List.cons_append, skipWs, if_pos ((ws_iff b).2 hb), ih hg]

/-- One token of a text area is read as its value (R113, R148). -/
theorem sampleToken_append {m v : Nat} {g d rest : List Byte} (hg : ∀ b ∈ g, wsByte b) (hd : digitString d v)
    (hv : v ≤ m) (hend : rest = [] ∨ ∃ b rest', rest = b :: rest' ∧ wsByte b) :
    sampleToken m (g ++ d ++ rest) = .ok (BitVec.ofNat 8 v, rest) := by
  have hrest : tokenEnds rest = true ∧ noDigitFirst rest := by
    rcases hend with rfl | ⟨b, rest', rfl, hb⟩
    · exact ⟨rfl, by simp [noDigitFirst]⟩
    · have hws := (ws_iff b).2 hb
      exact ⟨hws, noDigitFirst_of_ws hws rest'⟩
  obtain ⟨htoken, hnext⟩ := hrest
  have hskip : skipWs (g ++ d ++ rest) = d ++ rest := by
    rw [List.append_assoc]
    exact skipWs_append hg (noGapFirst_headerInt (.inl ⟨v, hd, rfl⟩) rest)
  have hread := readDigits_digitString hd hnext
  obtain ⟨b, more, rfl, hb⟩ := digitString_first hd
  rw [List.cons_append] at hread hskip
  rw [sampleToken, hskip]
  simp [hb, hread, htoken, hv]

/-- The text samples are the tokens of the area, whatever follows (R113, R148). -/
theorem textSamples_of_textArea {m : Nat} {samples area : List Byte} (h : textArea m samples area) :
    textSamples m samples.length area = .ok samples := by
  induction h with
  | done trailer => rfl
  | token g d rest samples v hg hd hv hend _ ih =>
    rw [List.length_cons, textSamples, sampleToken_append hg hd hv hend, except_ok_bind]
    dsimp only
    rw [ih, except_ok_bind]
    rfl

/-- The samples of the variant the header names. -/
theorem samples_of_sampleArea {h : Header} {samples : List Byte}
    (hcount : samples.length = h.width.toNat * h.height.toNat)
    (harea : sampleArea h.fmt h.maxval.toNat samples h.area) : h.samples = .ok samples := by
  unfold Header.samples
  rw [← hcount]
  cases hfmt : h.fmt with
  | bin =>
    rw [hfmt] at harea
    obtain ⟨⟨trailer, harea⟩, hrange⟩ := harea
    rw [harea]
    exact binarySamples_append hrange trailer
  | text =>
    rw [hfmt] at harea
    exact textSamples_of_textArea harea

/-- The decode unit answers the image of a graymap stream. -/
theorem decodeStream_of_graymapStream {p : Params} (hp : p.magicBin ≠ p.magicText) {img : DecodedImage}
    {stream : List Byte} (h : graymapStream p img stream) : decodeStream p stream = .ok img := by
  obtain ⟨hw, hh, hm, hsize, hcount, area, hheader, harea⟩ := h
  have hheader := readHeader_of_headedStream hp hheader
  have hcheck : checkHeader p ⟨img.fmt, img.width, img.height, img.maxval, area⟩ = .ok () :=
    checkHeader_of_bounds (Int.natCast_pos.2 hw) (Int.natCast_pos.2 hh) (Int.natCast_nonneg _) (Int.ofNat_le.2 hm)
      (Int.ofNat_le.2 hsize)
  have hsamples : Header.samples ⟨img.fmt, img.width, img.height, img.maxval, area⟩ = .ok img.samples :=
    samples_of_sampleArea hcount harea
  rw [decodeStream_eq, hheader, except_ok_bind, hcheck, except_ok_bind, hsamples]
  rfl

/-! ### The phase -/

/-- A decode that succeeds commits its image, and the command goes on as R255 says. -/
theorem exec_decode_of_ok {s : State} {i : Instr} {q : Phase} {img : DecodedImage} (hi : decodes i q)
    (hs : executes s .decode) (himg : decodeStream s.params s.stream = .ok img) :
    exec i s = .next ((s.clearRun.commitImage img).finish q) := by
  obtain ⟨hbusy, hphase⟩ := hs
  have hrun : runPhase .decode s = .completed (s.clearRun.commitImage img) := by simp [runPhase, phDecode, himg]
  rw [exec_of_busy hbusy]
  rcases hi with ⟨rfl, rfl⟩ | ⟨fmt, rfl, rfl⟩ <;>
    simp [Instr.wf, blockPhase, phasesOf, hphase, phaseNamed, nextPhase, firstPhase, PhaseOp.phase, hrun]

/-- What the commit of an image that fits leaves (R131, R149). -/
theorem imageCommitted_finish {s : State} {img : DecodedImage} (hp : paramsWf s.params) (hfits : img.Fits s.params)
    (hbusy : s.status.state = .busy) (herr : s.err = .none) (q : Phase) :
    imageCommitted s ((s.clearRun.commitImage img).finish q) img q := by
  obtain ⟨hwidth, hheight, hmaxval⟩ := hfits.toNat_header hp
  have hinputs : sameInputs s ((s.clearRun.commitImage img).finish q) := by simp [sameInputs, Memory.setBytes]
  have hbytes : sameBytes (fun sp _ => sp = .frame1) s ((s.clearRun.commitImage img).finish q) := by
    intro sp k hsp
    simp [hsp]
  have hconv : sameConvFrom 0 s ((s.clearRun.commitImage img).finish q) := by simp [sameConvFrom]
  have hgoes : goesOn ((s.clearRun.commitImage img).finish q) q := by simp [goesOn, hbusy, herr]
  simp [imageCommitted, hwidth, hheight, hmaxval, hinputs, hbytes, hconv, hgoes, Memory.setBytes]

/-- Settles O15: the decode unit reads the stream as the grammar does, and the phase commits what it read. -/
theorem decodeCompletesOnGraymapStreams : Obligations.DecodeCompletesOnGraymapStreams := by
  intro s i q img hi hp hs herr hstream
  have ⟨_, _, _, _, _, hmagic⟩ := hp
  have himg : decodeStream s.params s.stream = .ok img := decodeStream_of_graymapStream hmagic hstream
  exact ⟨_, exec_decode_of_ok hi hs himg, imageCommitted_finish hp (decodeStream_fits himg) hs.1 herr q⟩

end Sys2Proof.Machine
end

section
/-! PROOF. Which error a decode that fails raises (spec/40_graymap_decoder.md R132 to R152): the first check that fails
decides, and the phase then leaves no image (R150). -/

namespace Sys2Proof.Machine

/-! ### The phase -/

/-- What the error entry leaves after a decode that fails (R131, R150; spec/60_exceptions.md R296). -/
theorem decodeFailed_raise (s : State) (e : ErrCode) :
    decodeFailed s ((s.clearRun.replaceBytes .frame1 []).raise e) e := by
  have hcleared : runCleared ((s.clearRun.replaceBytes .frame1 []).raise e) := by simp [runCleared]
  have hinputs : sameInputs s ((s.clearRun.replaceBytes .frame1 []).raise e) := by simp [sameInputs, Memory.setBytes]
  have hbytes : sameBytes (fun sp _ => sp = .frame1) s ((s.clearRun.replaceBytes .frame1 []).raise e) := by
    intro sp k hsp
    simp [hsp]
  have hconv : sameConvFrom 0 s ((s.clearRun.replaceBytes .frame1 []).raise e) := by simp [sameConvFrom]
  exact ⟨rfl, rfl, rfl, hcleared, hinputs, hbytes, hconv⟩

/-- A decode that fails takes the error entry with the stream's error. -/
theorem exec_decode_of_error {s : State} {i : Instr} {q : Phase} {e : ErrCode} (hi : decodes i q)
    (hs : executes s .decode) (herr : decodeStream s.params s.stream = .error e) :
    ∃ t, exec i s = .next t ∧ decodeFailed s t e := by
  obtain ⟨hbusy, hphase⟩ := hs
  have hrun : runPhase .decode s = .failed e (s.clearRun.replaceBytes .frame1 []) := by simp [runPhase, phDecode, herr]
  refine ⟨_, ?_, decodeFailed_raise s e⟩
  rw [exec_of_busy hbusy]
  rcases hi with ⟨rfl, rfl⟩ | ⟨fmt, rfl, rfl⟩ <;>
    simp [Instr.wf, blockPhase, phasesOf, hphase, phaseNamed, PhaseOp.phase, hrun]

/-! ### The order of the checks (R152) -/

section
variable {p : Params} {stream : List Byte} {h : Header} {e : ErrCode}

theorem decodeStream_of_header_error (herr : readHeader p stream = .error e) : decodeStream p stream = .error e := by
  rw [decodeStream_eq, herr, except_error_bind]

theorem decodeStream_of_check_error (hh : readHeader p stream = .ok h) (herr : checkHeader p h = .error e) :
    decodeStream p stream = .error e := by
  rw [decodeStream_eq, hh, except_ok_bind, herr, except_error_bind]

theorem decodeStream_of_samples_error (hh : readHeader p stream = .ok h) (hc : checkHeader p h = .ok ())
    (herr : h.samples = .error e) : decodeStream p stream = .error e := by
  rw [decodeStream_eq, hh, except_ok_bind, hc, except_ok_bind, herr, except_error_bind]

end

/-! ### The magic token -/

/-- Neither magic token begins the stream (R132). -/
theorem magic_eq_error {p : Params} {l : List Byte}
    (h : ∀ rest, l ≠ magicBytes p .bin ++ rest ∧ l ≠ magicBytes p .text ++ rest) : magic p l = .error .format := by
  match l with
  | [] => rfl
  | [_] => rfl
  | b0 :: b1 :: rest =>
    obtain ⟨hbin, htext⟩ := h rest
    have hbin : (b0, b1) ≠ p.magicBin := fun heq => hbin (by simp [magicBytes, ← heq])
    have htext : (b0, b1) ≠ p.magicText := fun heq => htext (by simp [magicBytes, ← heq])
    rw [magic, if_neg hbin, if_neg htext]

/-- Settles O17. -/
theorem unrecognisedMagicRaisesFormat : Obligations.UnrecognisedMagicRaisesFormat := by
  intro s i q hi hs hmagic
  refine exec_decode_of_error hi hs (decodeStream_of_header_error ?_)
  rw [readHeader, magic_eq_error hmagic, except_error_bind]

/-! ### The checks of the header -/

theorem checkHeader_of_maxval {p : Params} {h : Header} (hw : 0 < h.width) (hh : 0 < h.height)
    (hm : h.maxval < 0 ∨ 255 < h.maxval) : checkHeader p h = .error .format := by
  rw [checkHeader, if_neg (by omega), if_pos hm]

theorem checkHeader_of_size {p : Params} {h : Header} (hw : 0 < h.width) (hh : 0 < h.height) (hm : 0 ≤ h.maxval)
    (hm' : h.maxval ≤ 255) (hsize : (p.maxPixels : Int) < h.width * h.height) :
    checkHeader p h = .error .allocation := by
  rw [checkHeader, if_neg (by omega), if_neg (by omega), if_pos hsize]

/-- Settles O20. -/
theorem maxValueOutOfRangeRaisesFormat : Obligations.MaxValueOutOfRangeRaisesFormat := by
  intro s i q fmt w h m area hi hp hs hheader hw hh hm
  have ⟨_, _, _, _, _, hmagic⟩ := hp
  exact exec_decode_of_error hi hs
    (decodeStream_of_check_error (readHeader_of_headedStream hmagic hheader) (checkHeader_of_maxval hw hh hm))

/-- Settles O21. -/
theorem tooManyPixelsRaisesAllocation : Obligations.TooManyPixelsRaisesAllocation := by
  intro s i q fmt w h m area hi hp hs hheader hw hh hm hm' hsize
  have ⟨_, _, _, _, _, hmagic⟩ := hp
  exact exec_decode_of_error hi hs
    (decodeStream_of_check_error (readHeader_of_headedStream hmagic hheader) (checkHeader_of_size hw hh hm hm' hsize))

/-! ### A header that passes the checks -/

/-- A stream whose header passes all checks fails as its samples do. -/
theorem exec_decode_of_samples_error {s : State} {i : Instr} {q : Phase} {fmt : Fmt} {w h m : Int} {area : List Byte}
    {e : ErrCode} (hi : decodes i q) (hp : paramsWf s.params) (hs : executes s .decode)
    (hheader : headedStream s.params fmt w h m area s.stream) (hw : 0 < w) (hh : 0 < h) (hm : 0 ≤ m) (hm' : m ≤ 255)
    (hsize : w * h ≤ s.params.maxPixels) (herr : Header.samples ⟨fmt, w, h, m, area⟩ = .error e) :
    ∃ t, exec i s = .next t ∧ decodeFailed s t e := by
  have ⟨_, _, _, _, _, hmagic⟩ := hp
  exact exec_decode_of_error hi hs (decodeStream_of_samples_error (readHeader_of_headedStream hmagic hheader)
    (checkHeader_of_bounds hw hh hm hm' hsize) herr)

/-! ### Binary samples -/

theorem binarySamples_of_short {n m : Nat} {area : List Byte} (h : area.length < n) :
    binarySamples n m area = .error .truncatedData := if_pos h

theorem binarySamples_of_range {n m : Nat} {area : List Byte} (hlen : n ≤ area.length)
    (h : ∃ b ∈ area.take n, m < b.toNat) : binarySamples n m area = .error .format := by
  rw [binarySamples, if_neg (by omega), if_neg (by simpa using h)]

/-- Settles O22. -/
theorem binarySamplesAreCountedThenRanged : Obligations.BinarySamplesAreCountedThenRanged := by
  intro s i q w h m area hi hp hs hheader hw hh hm hm' hsize
  have hcount : w.toNat * h.toNat = (w * h).toNat := (Int.toNat_mul hw.le hh.le).symm
  constructor
  · intro hshort
    exact exec_decode_of_samples_error hi hp hs hheader hw hh hm hm' hsize
      (binarySamples_of_short (by dsimp only; omega))
  · rintro hlen ⟨b, hb, hrange⟩
    rw [← hcount] at hb
    exact exec_decode_of_samples_error hi hp hs hheader hw hh hm hm' hsize
      (binarySamples_of_range (by dsimp only; omega) ⟨b, hb, by dsimp only; omega⟩)

/-! ### Text samples -/

/-- What may follow the digits of a sample token (R113). -/
def endsToken (l : List Byte) : Prop := l = [] ∨ ∃ b rest, l = b :: rest ∧ wsByte b

theorem tokenEnds_iff (l : List Byte) : tokenEnds l = true ↔ endsToken l := by
  cases l <;> simp [tokenEnds, endsToken, ws_iff]

/-- The pairs of a text sample area (R113): whitespace, which may be empty before the first one only, and the digits of
a value in range. -/
def goodTokens (m : Nat) (tokens : List (List Byte × List Byte)) : Prop :=
  (∀ x ∈ tokens, (∀ b ∈ x.1, wsByte b) ∧ ∃ v, digitString x.2 v ∧ v ≤ m) ∧ ∀ x ∈ tokens.tail, x.1 ≠ []

theorem endsToken_ws_append {g : List Byte} (hg : ∀ b ∈ g, wsByte b) (hne : g ≠ []) (l : List Byte) :
    endsToken (g ++ l) := by
  obtain ⟨b, g, rfl⟩ := List.exists_cons_of_ne_nil hne
  exact .inr ⟨b, g ++ l, rfl, hg b (by simp)⟩

/-- Whitespace before a token is skipped, whatever follows it. -/
theorem skipWs_ws_append {g : List Byte} (hg : ∀ b ∈ g, wsByte b) (l : List Byte) : skipWs (g ++ l) = skipWs l := by
  induction g with
  | nil => rfl
  | cons b g ih =>
    obtain ⟨hb, hg⟩ := List.forall_mem_cons.1 hg
    rw [List.cons_append, skipWs, if_pos ((ws_iff b).2 hb), ih hg]

theorem sampleToken_ws_append {g : List Byte} (hg : ∀ b ∈ g, wsByte b) (m : Nat) (l : List Byte) :
    sampleToken m (g ++ l) = sampleToken m l := by
  rw [sampleToken, skipWs_ws_append hg, ← sampleToken]

theorem sampleToken_of_no_digit {b : Byte} (hws : ¬ wsByte b) (hdigit : ¬ digitByte b) (m : Nat) (more : List Byte) :
    sampleToken m (b :: more) = .error .format := by
  rw [← ws_iff, Bool.not_eq_true] at hws
  rw [← isDigit_iff] at hdigit
  simp [sampleToken, skipWs, hws, hdigit]

/-- A token that is above `max_value`, or not followed by whitespace or the end of the stream. -/
theorem sampleToken_of_bad_token {m v : Nat} {d more : List Byte} (hd : digitString d v) (hnext : noDigitFirst more)
    (hbad : m < v ∨ ¬ endsToken more) : sampleToken m (d ++ more) = .error .format := by
  have hread := readDigits_digitString hd hnext
  rw [← tokenEnds_iff, Bool.not_eq_true] at hbad
  obtain ⟨b, d, rfl, hb⟩ := digitString_first hd
  have hws : ws b = false := (ws_of_isDigit hb).1
  rw [List.cons_append] at hread ⊢
  rw [sampleToken, show skipWs (b :: (d ++ more)) = b :: (d ++ more) by simp [skipWs, hws]]
  dsimp only
  rw [if_pos hb, hread]
  rcases hbad with hrange | hend
  · simp [hrange]
  · simp [hend]

/-- The error of the samples after good tokens is the error of all (R148: stream order). -/
theorem textSamples_of_goodTokens {m n : Nat} {e : ErrCode} {tokens : List (List Byte × List Byte)} {tail : List Byte}
    (htokens : goodTokens m tokens) (hend : tokens = [] ∨ endsToken tail) (herr : textSamples m n tail = .error e) :
    textSamples m (tokens.length + n) ((tokens.flatMap fun x => x.1 ++ x.2) ++ tail) = .error e := by
  induction tokens with
  | nil => simpa using herr
  | cons x tokens ih =>
    obtain ⟨hall, hgaps⟩ := htokens
    obtain ⟨⟨hws, v, hdigits, hv⟩, hall⟩ := List.forall_mem_cons.1 hall
    have htail : endsToken tail := hend.resolve_left (List.cons_ne_nil _ _)
    have hnext : endsToken ((tokens.flatMap fun x => x.1 ++ x.2) ++ tail) := by
      cases tokens with
      | nil => exact htail
      | cons y tokens =>
        rw [List.flatMap_cons, List.append_assoc, List.append_assoc]
        exact endsToken_ws_append (hall y (by simp)).1 (hgaps y (by simp)) _
    have hrest := ih ⟨hall, fun y hy => hgaps y (List.mem_of_mem_tail hy)⟩ (.inr htail)
    rw [List.length_cons, Nat.succ_add, textSamples, List.flatMap_cons, List.append_assoc,
      sampleToken_append hws hdigits hv hnext, except_ok_bind]
    dsimp only
    rw [hrest, except_error_bind]

/-- Settles O23: the good tokens are read one by one, and the next one decides the error. -/
theorem textSampleErrorsComeInStreamOrder : Obligations.TextSampleErrorsComeInStreamOrder := by
  intro s i q w h m tokens blank rest hi hp hs hheader hw hh hm hm' hsize hfew htokens hgaps hblank hsep
  have hcount : w.toNat * h.toNat = (w * h).toNat := (Int.toNat_mul hw.le hh.le).symm
  obtain ⟨n, hn⟩ : ∃ n, w.toNat * h.toNat = tokens.length + (n + 1) :=
    Nat.exists_eq_add_of_lt (show tokens.length < w.toNat * h.toNat by omega)
  have hgood : goodTokens m.toNat tokens := by
    refine ⟨fun x hx => ?_, hgaps⟩
    obtain ⟨hws, v, hdigits, hv⟩ := htokens x hx
    exact ⟨hws, v, hdigits, by omega⟩
  have hfails : ∀ e, sampleToken m.toNat rest = .error e → ∃ t, exec i s = .next t ∧ decodeFailed s t e := by
    intro e herr
    have hend : tokens = [] ∨ endsToken (blank ++ rest) := by
      by_cases hne : blank = []
      · subst hne
        exact hsep.imp_right fun hrest => .inl (by simpa using hrest)
      · exact .inr (endsToken_ws_append hblank hne rest)
    have herr : textSamples m.toNat (n + 1) (blank ++ rest) = .error e := by
      rw [textSamples, sampleToken_ws_append hblank, herr, except_error_bind]
    refine exec_decode_of_samples_error hi hp hs hheader hw hh hm hm' hsize ?_
    rw [Header.samples]
    dsimp only
    rw [hn, List.append_assoc]
    exact textSamples_of_goodTokens hgood hend herr
  refine ⟨?_, ?_, ?_⟩
  · rintro rfl
    exact hfails _ rfl
  · rintro ⟨b, more, rfl, hws, hdigit⟩
    exact hfails _ (sampleToken_of_no_digit hws hdigit _ more)
  · rintro ⟨d, more, v, rfl, hdigits, hnext, hbad⟩
    have hnext : noDigitFirst more := fun b hb => Bool.eq_false_iff.2 (mt (isDigit_iff b).1 (hnext b hb))
    refine hfails _ (sampleToken_of_bad_token hdigits hnext (hbad.imp (fun hv => by omega) ?_))
    rintro ⟨b, hb, hws⟩ (rfl | ⟨b', more, rfl, hws'⟩)
    · cases hb
    · cases hb
      exact hws hws'

end Sys2Proof.Machine
end

section
/-! PROOF. The decode unit accepts nothing but graymap streams (spec/40_graymap_decoder.md R150, R152): what a routine
consumes when it succeeds is the part of the grammar of spec/30_encoding.md R104 to R116 that it is for, and when it fails
its error is one of those of the rules. -/

namespace Sys2Proof.Machine

/-! ### Gaps -/

/-- What the loop of `gap()` consumes before it stops at a byte: the items of a gap, after the rest of the comment it
begins in, if it begins in one (R107, R133). -/
def gapLoopBytes : Bool → List Byte → Prop
  | false, l => ∃ items : List (List Byte), (∀ x ∈ items, gapItem x) ∧ l = items.flatten
  | true, l => ∃ (text : List Byte) (items : List (List Byte)),
      0x0A#8 ∉ text ∧ (∀ x ∈ items, gapItem x) ∧ l = text ++ 0x0A#8 :: items.flatten

theorem gapLoopBytes_ws {b : Byte} (hb : ws b = true) {l : List Byte} (h : gapLoopBytes false l) :
    gapLoopBytes false (b :: l) := by
  obtain ⟨items, hitems, rfl⟩ := h
  exact ⟨[b] :: items, List.forall_mem_cons.2 ⟨.inl ⟨b, (ws_iff b).1 hb, rfl⟩, hitems⟩, rfl⟩

theorem gapLoopBytes_hash {l : List Byte} (h : gapLoopBytes true l) : gapLoopBytes false (0x23#8 :: l) := by
  obtain ⟨text, items, htext, hitems, rfl⟩ := h
  exact ⟨(0x23#8 :: text ++ [0x0A#8]) :: items, List.forall_mem_cons.2 ⟨.inr ⟨text, htext, rfl⟩, hitems⟩, by simp⟩

theorem gapLoopBytes_lineFeed {l : List Byte} (h : gapLoopBytes false l) : gapLoopBytes true (0x0A#8 :: l) := by
  obtain ⟨items, hitems, rfl⟩ := h
  exact ⟨[], items, by simp, hitems, rfl⟩

theorem gapLoopBytes_comment {b : Byte} (hb : b ≠ 0x0A#8) {l : List Byte} (h : gapLoopBytes true l) :
    gapLoopBytes true (b :: l) := by
  obtain ⟨text, items, htext, hitems, rfl⟩ := h
  exact ⟨b :: text, items, by simp [htext, hb.symm], hitems, rfl⟩

/-- The loop of `gap()` stops at the end of the stream, perhaps inside a comment, or after whole items. -/
theorem skipGap_consumes (inComment : Bool) (l : List Byte) :
    skipGap inComment l = [] ∨ ∃ consumed, gapLoopBytes inComment consumed ∧ l = consumed ++ skipGap inComment l := by
  induction l generalizing inComment with
  | nil => exact .inl rfl
  | cons b l ih =>
    cases inComment with
    | true =>
      by_cases hb : b = 0x0A#8
      · subst hb
        exact (ih false).imp_right fun ⟨c, hc, hl⟩ => ⟨_, gapLoopBytes_lineFeed hc, congrArg _ hl⟩
      · have hstep : skipGap true (b :: l) = skipGap true l := by rw [skipGap, if_pos rfl, bne_iff_ne.2 hb]
        rw [hstep]
        exact (ih true).imp_right fun ⟨c, hc, hl⟩ => ⟨_, gapLoopBytes_comment hb hc, congrArg _ hl⟩
    | false =>
      by_cases hws : ws b = true
      · have hstep : skipGap false (b :: l) = skipGap false l := by simp [skipGap, hws]
        rw [hstep]
        exact (ih false).imp_right fun ⟨c, hc, hl⟩ => ⟨_, gapLoopBytes_ws hws hc, congrArg _ hl⟩
      · by_cases hb : b = 0x23#8
        · subst hb
          exact (ih true).imp_right fun ⟨c, hc, hl⟩ => ⟨_, gapLoopBytes_hash hc, congrArg _ hl⟩
        · have hstep : skipGap false (b :: l) = b :: l := by simp [skipGap, hws, hb]
          rw [hstep]
          exact .inr ⟨[], ⟨[], by simp, rfl⟩, rfl⟩

/-- After `gap()` the stream is at its end or at a byte that begins no gap (R133). -/
theorem noGapFirst_skipGap (inComment : Bool) (l : List Byte) : noGapFirst (skipGap inComment l) := by
  induction l generalizing inComment with
  | nil => simp [skipGap, noGapFirst]
  | cons b l ih =>
    rw [skipGap]
    split_ifs with _ hws hb
    · exact ih _
    · exact ih _
    · exact ih _
    · simpa [noGapFirst, hws] using hb

/-- `gap()` consumes a gap, or runs to the end of the stream. -/
theorem gap_eq_ok {l r : List Byte} (h : gap l = .ok r) : r = [] ∨ ∃ g, gapBytes g ∧ l = g ++ r := by
  cases l with
  | nil => cases h
  | cons b l =>
    rw [gap] at h
    split at h
    · next hfirst =>
      cases h
      refine (skipGap_consumes false (b :: l)).imp_right ?_
      rintro ⟨consumed, ⟨items, hitems, rfl⟩, hl⟩
      refine ⟨_, ⟨items, ?_, hitems, rfl⟩, hl⟩
      rintro rfl
      have hstop := noGapFirst_skipGap false (b :: l)
      rw [← show b :: l = skipGap false (b :: l) from hl] at hstop
      obtain ⟨hws, hb⟩ := hstop b rfl
      simp [hws, hb] at hfirst
    · cases h

/-! ### Numbers -/

/-- Digits are read into their value, up to what follows them (R109, R134). -/
theorem readDigits_consumes (v : Nat) (l : List Byte) :
    ∃ d, (∀ b ∈ d, digitByte b) ∧ l = d ++ (readDigits v l).2 ∧
      (readDigits v l).1 = d.foldl (fun v b => 10 * v + (b.toNat - 0x30)) v := by
  induction l generalizing v with
  | nil => exact ⟨[], by simp, rfl, rfl⟩
  | cons b l ih =>
    by_cases hb : isDigit b = true
    · obtain ⟨d, hd, hl, hv⟩ := ih (10 * v + (b.toNat - 0x30))
      rw [readDigits, if_pos hb]
      exact ⟨b :: d, List.forall_mem_cons.2 ⟨(isDigit_iff b).1 hb, hd⟩, congrArg _ hl, hv⟩
    · rw [readDigits, if_neg hb]
      exact ⟨[], by simp, rfl, rfl⟩

/-- At a digit a digit string is read, to its value. -/
theorem readDigits_digit {b : Byte} {l r : List Byte} {v : Nat} (hb : isDigit b = true)
    (hread : readDigits 0 (b :: l) = (v, r)) : ∃ d, digitString d v ∧ b :: l = d ++ r := by
  obtain ⟨d, hd, hl, hv⟩ := readDigits_consumes (10 * 0 + (b.toNat - 0x30)) l
  rw [readDigits, if_pos hb] at hread
  rw [hread] at hl hv
  exact ⟨b :: d, ⟨List.cons_ne_nil _ _, List.forall_mem_cons.2 ⟨(isDigit_iff b).1 hb, hd⟩,
    (digitsValue_eq_foldl (b :: d)).trans hv.symm⟩, congrArg _ hl⟩

theorem digits_eq_ok {l r : List Byte} {v : Nat} (h : digits l = .ok (v, r)) :
    ∃ d, digitString d v ∧ l = d ++ r := by
  cases l with
  | nil => cases h
  | cons b l =>
    rw [digits] at h
    split at h
    · next hb => exact readDigits_digit hb (Except.ok.inj h)
    · cases h

theorem except_map_eq_ok {ε α β : Type} {x : Except ε α} {f : α → β} {b : β} (h : x.map f = .ok b) :
    ∃ a, x = .ok a ∧ f a = b := by
  cases x with
  | error e => cases h
  | ok a => exact ⟨a, rfl, Except.ok.inj h⟩

/-- `hint()` consumes a header integer (R134). -/
theorem hint_eq_ok {l r : List Byte} {v : Int} (h : hint l = .ok (v, r)) : ∃ a, headerInt a v ∧ l = a ++ r := by
  cases l with
  | nil => cases h
  | cons b l =>
    rw [hint] at h
    split at h
    · next hb =>
      obtain ⟨⟨n, r'⟩, hdigits, heq⟩ := except_map_eq_ok h
      obtain ⟨d, hd, rfl⟩ := digits_eq_ok hdigits
      cases heq
      obtain rfl : b = 0x2D#8 := by simpa using hb
      exact ⟨0x2D#8 :: d, .inr ⟨d, n, rfl, hd, rfl⟩, rfl⟩
    · obtain ⟨⟨n, r'⟩, hdigits, heq⟩ := except_map_eq_ok h
      obtain ⟨d, hd, hl⟩ := digits_eq_ok hdigits
      cases heq
      exact ⟨d, .inl ⟨n, hd, rfl⟩, hl⟩

/-! ### The header -/

theorem magic_eq_ok {p : Params} {l r : List Byte} {fmt : Fmt} (h : magic p l = .ok (fmt, r)) :
    l = magicBytes p fmt ++ r := by
  unfold magic at h
  split at h
  · split at h
    · next hbin =>
      cases h
      simp [magicBytes, ← hbin]
    · split at h
      · next htext =>
        cases h
        simp [magicBytes, ← htext]
      · cases h
  · cases h

/-- A gap at the end of the stream has no number after it, so a comment without its line feed is never accepted (R133,
R134). -/
theorem gap_hint_eq_ok {l r r' : List Byte} {v : Int} (hgap : gap l = .ok r) (hhint : hint r = .ok (v, r')) :
    ∃ g a, gapBytes g ∧ headerInt a v ∧ l = g ++ a ++ r' := by
  obtain ⟨a, ha, rfl⟩ := hint_eq_ok hhint
  rcases gap_eq_ok hgap with hnil | ⟨g, hg, rfl⟩
  · rw [hnil] at hhint
    cases hhint
  · exact ⟨g, a, hg, ha, (List.append_assoc ..).symm⟩

theorem headerEnd_eq_ok {tail area : List Byte} (h : headerEnd tail = .ok area) : headerTail tail area := by
  cases tail with
  | nil =>
    cases h
    exact .inl ⟨rfl, rfl⟩
  | cons b tail =>
    rw [headerEnd] at h
    split at h
    · next hb =>
      cases h
      exact .inr ⟨b, (ws_iff b).1 hb, rfl⟩
    · cases h

/-- A header that is read is well-formed (R104 to R110). -/
theorem headedStream_of_readHeader {p : Params} {stream : List Byte} {h : Header} (hh : readHeader p stream = .ok h) :
    headedStream p h.fmt h.width h.height h.maxval h.area stream := by
  simp only [readHeader, except_bind_eq_ok_iff, pure, Except.pure, Except.ok.injEq] at hh
  obtain ⟨⟨fmt, r1⟩, hmagic, r2, hgap1, ⟨w, r3⟩, hw, r4, hgap2, ⟨ht, r5⟩, hht, r6, hgap3, ⟨m, r7⟩, hm, area, hend,
    rfl⟩ := hh
  obtain rfl := magic_eq_ok hmagic
  obtain ⟨g1, a, hg1, ha, rfl⟩ := gap_hint_eq_ok hgap1 hw
  obtain ⟨g2, b, hg2, hb, rfl⟩ := gap_hint_eq_ok hgap2 hht
  obtain ⟨g3, c, hg3, hc, rfl⟩ := gap_hint_eq_ok hgap3 hm
  exact ⟨_, r7, ⟨g1, a, g2, b, g3, c, hg1, ha, hg2, hb, hg3, hc, rfl⟩, headerEnd_eq_ok hend, by simp⟩

/-! ### The samples -/

theorem binarySamples_take {n m : Nat} {area vs : List Byte} (h : binarySamples n m area = .ok vs) :
    vs = area.take n := by
  unfold binarySamples at h
  split at h
  · cases h
  · split at h
    · exact (Except.ok.inj h).symm
    · cases h

theorem skipWs_consumes (l : List Byte) : ∃ g, (∀ b ∈ g, wsByte b) ∧ l = g ++ skipWs l := by
  induction l with
  | nil => exact ⟨[], by simp, rfl⟩
  | cons b l ih =>
    by_cases hb : ws b = true
    · obtain ⟨g, hg, hl⟩ := ih
      rw [skipWs, if_pos hb]
      exact ⟨b :: g, List.forall_mem_cons.2 ⟨(ws_iff b).1 hb, hg⟩, congrArg _ hl⟩
    · rw [skipWs, if_neg hb]
      exact ⟨[], by simp, rfl⟩

/-- A sample token is whitespace, the digits of a value in range, and then whitespace or the end of the stream (R113). -/
theorem sampleToken_consumes {m : Nat} {area rest : List Byte} {b : Byte} (h : sampleToken m area = .ok (b, rest)) :
    ∃ g d v, (∀ x ∈ g, wsByte x) ∧ digitString d v ∧ v ≤ m ∧ endsToken rest ∧ area = g ++ d ++ rest ∧
      b = BitVec.ofNat 8 v := by
  obtain ⟨g, hg, harea⟩ := skipWs_consumes area
  unfold sampleToken at h
  split at h
  · cases h
  next b' more hskip =>
  split at h
  · next hb' =>
    obtain ⟨⟨v, r⟩, hread⟩ : ∃ x, readDigits 0 (b' :: more) = x := ⟨_, rfl⟩
    obtain ⟨d, hd, hdigits⟩ := readDigits_digit hb' hread
    rw [hread] at h
    dsimp only at h
    split at h
    · cases h
    next hend =>
    split at h
    · cases h
    next hv =>
    cases h
    refine ⟨g, d, v, hg, hd, by omega, (tokenEnds_iff _).1 (by simpa using hend), ?_, rfl⟩
    rw [harea, hskip, hdigits, List.append_assoc]
  · cases h

theorem textArea_of_textSamples {m n : Nat} {area vs : List Byte} (h : textSamples m n area = .ok vs) :
    textArea m vs area := by
  induction n generalizing area vs with
  | zero =>
    cases h
    exact .done area
  | succ n ih =>
    simp only [textSamples, except_bind_eq_ok_iff, pure, Except.pure, Except.ok.injEq] at h
    obtain ⟨⟨b, rest⟩, htoken, tail, htail, rfl⟩ := h
    obtain ⟨g, d, v, hg, hd, hv, hend, rfl, rfl⟩ := sampleToken_consumes htoken
    exact .token g d rest tail v hg hd hv hend (ih htail)

/-- Samples that are read stand in the sample area (R111, R113, R115). -/
theorem sampleArea_of_samples {h : Header} {vs : List Byte} (hvs : h.samples = .ok vs) :
    sampleArea h.fmt h.maxval.toNat vs h.area := by
  obtain ⟨-, hrange⟩ := Header.samples_eq_ok hvs
  unfold Header.samples at hvs
  cases hfmt : h.fmt with
  | bin =>
    rw [hfmt] at hvs
    obtain rfl := binarySamples_take hvs
    exact ⟨⟨_, (List.take_append_drop _ _).symm⟩, hrange⟩
  | text =>
    rw [hfmt] at hvs
    exact textArea_of_textSamples hvs

/-- A stream that is decoded is a graymap stream of its image. -/
theorem graymapStream_of_decodeStream {p : Params} {stream : List Byte} {img : DecodedImage}
    (h : decodeStream p stream = .ok img) : graymapStream p img stream := by
  have hfits := decodeStream_fits h
  simp only [decodeStream_eq, except_bind_eq_ok_iff, Except.ok.injEq] at h
  obtain ⟨hdr, hheader, _, hcheck, samples, hsamples, rfl⟩ := h
  obtain ⟨hw, hh, hm, -, -⟩ := checkHeader_eq_ok hcheck
  refine ⟨hfits.width, hfits.height, hfits.maxval, hfits.size, hfits.count, hdr.area, ?_,
    sampleArea_of_samples hsamples⟩
  dsimp only
  rw [Int.toNat_of_nonneg hw.le, Int.toNat_of_nonneg hh.le, Int.toNat_of_nonneg hm]
  exact headedStream_of_readHeader hheader

/-! ### The errors of each routine -/

/-- An answer that is a value or one of the errors `codes`. -/
def failsOnlyWith {α : Type} (codes : List ErrCode) (x : Except ErrCode α) : Prop := ∀ e, x = .error e → e ∈ codes

theorem failsOnlyWith_ok {α : Type} {codes : List ErrCode} (a : α) : failsOnlyWith codes (.ok a) := nofun

theorem failsOnlyWith_error {α : Type} {codes : List ErrCode} {e : ErrCode} (h : e ∈ codes) :
    failsOnlyWith codes (.error e : Except ErrCode α) := by
  rintro _ ⟨⟩
  exact h

theorem failsOnlyWith.mono {α : Type} {codes codes' : List ErrCode} {x : Except ErrCode α}
    (h : failsOnlyWith codes x) (hsub : codes ⊆ codes') : failsOnlyWith codes' x := fun e he => hsub (h e he)

theorem failsOnlyWith.bind {α β : Type} {codes : List ErrCode} {x : Except ErrCode α} {f : α → Except ErrCode β}
    (hx : failsOnlyWith codes x) (hf : ∀ a, failsOnlyWith codes (f a)) : failsOnlyWith codes (x >>= f) := by
  cases x with
  | error e => exact failsOnlyWith_error (hx e rfl)
  | ok a => exact hf a

theorem failsOnlyWith.map {α β : Type} {codes : List ErrCode} {x : Except ErrCode α} (hx : failsOnlyWith codes x)
    (f : α → β) : failsOnlyWith codes (x.map f) := by
  cases x with
  | error e => exact failsOnlyWith_error (hx e rfl)
  | ok a => exact failsOnlyWith_ok _

theorem failsOnlyWith.ite {α : Type} {codes : List ErrCode} {c : Prop} [Decidable c] {x y : Except ErrCode α}
    (hx : failsOnlyWith codes x) (hy : failsOnlyWith codes y) : failsOnlyWith codes (if c then x else y) := by
  split
  · exact hx
  · exact hy

/-- `FormatError`, the only error of the routines of the header. -/
theorem failsOnlyWith_format {α : Type} : failsOnlyWith [.format] (.error .format : Except ErrCode α) :=
  failsOnlyWith_error (by simp)

theorem magic_failsOnlyWith (p : Params) (l : List Byte) : failsOnlyWith [.format] (magic p l) := by
  unfold magic
  split
  · exact (failsOnlyWith_ok _).ite ((failsOnlyWith_ok _).ite failsOnlyWith_format)
  · exact failsOnlyWith_format

theorem gap_failsOnlyWith (l : List Byte) : failsOnlyWith [.format] (gap l) := by
  cases l with
  | nil => exact failsOnlyWith_format
  | cons b l => exact (failsOnlyWith_ok _).ite failsOnlyWith_format

theorem digits_failsOnlyWith (l : List Byte) : failsOnlyWith [.format] (digits l) := by
  cases l with
  | nil => exact failsOnlyWith_format
  | cons b l => exact (failsOnlyWith_ok _).ite failsOnlyWith_format

theorem hint_failsOnlyWith (l : List Byte) : failsOnlyWith [.format] (hint l) := by
  cases l with
  | nil => exact failsOnlyWith_format
  | cons b l => exact ((digits_failsOnlyWith _).map _).ite ((digits_failsOnlyWith _).map _)

theorem headerEnd_failsOnlyWith (l : List Byte) : failsOnlyWith [.format] (headerEnd l) := by
  cases l with
  | nil => exact failsOnlyWith_ok _
  | cons b l => exact (failsOnlyWith_ok _).ite failsOnlyWith_format

/-- Every lexical failure of the header is a `FormatError` (R132 to R136). -/
theorem readHeader_failsOnlyWith (p : Params) (l : List Byte) : failsOnlyWith [.format] (readHeader p l) :=
  (magic_failsOnlyWith p l).bind fun _ =>
    (gap_failsOnlyWith _).bind fun _ => (hint_failsOnlyWith _).bind fun _ =>
    (gap_failsOnlyWith _).bind fun _ => (hint_failsOnlyWith _).bind fun _ =>
    (gap_failsOnlyWith _).bind fun _ => (hint_failsOnlyWith _).bind fun _ =>
    (headerEnd_failsOnlyWith _).bind fun _ => failsOnlyWith_ok _

theorem checkHeader_failsOnlyWith (p : Params) (h : Header) :
    failsOnlyWith [.invalidDimension, .format, .allocation] (checkHeader p h) :=
  (failsOnlyWith_error (by simp)).ite
    ((failsOnlyWith_error (by simp)).ite ((failsOnlyWith_error (by simp)).ite (failsOnlyWith_ok _)))

theorem binarySamples_failsOnlyWith (n m : Nat) (area : List Byte) :
    failsOnlyWith [.truncatedData, .format] (binarySamples n m area) :=
  (failsOnlyWith_error (by simp)).ite ((failsOnlyWith_ok _).ite (failsOnlyWith_error (by simp)))

theorem sampleToken_failsOnlyWith (m : Nat) (area : List Byte) :
    failsOnlyWith [.truncatedData, .format] (sampleToken m area) := by
  unfold sampleToken
  split
  · exact failsOnlyWith_error (by simp)
  · exact ((failsOnlyWith_error (by simp)).ite ((failsOnlyWith_error (by simp)).ite (failsOnlyWith_ok _))).ite
      (failsOnlyWith_error (by simp))

theorem textSamples_failsOnlyWith (m n : Nat) (area : List Byte) :
    failsOnlyWith [.truncatedData, .format] (textSamples m n area) := by
  induction n generalizing area with
  | zero => exact failsOnlyWith_ok _
  | succ n ih => exact (sampleToken_failsOnlyWith m area).bind fun _ => (ih _).bind fun _ => failsOnlyWith_ok _

theorem Header.samples_failsOnlyWith (h : Header) : failsOnlyWith [.truncatedData, .format] h.samples := by
  unfold Header.samples
  split
  · exact binarySamples_failsOnlyWith _ _ _
  · exact textSamples_failsOnlyWith _ _ _

/-- The four errors of a decode (R152). -/
theorem decodeStream_failsOnlyWith (p : Params) (stream : List Byte) :
    failsOnlyWith [.format, .invalidDimension, .truncatedData, .allocation] (decodeStream p stream) := by
  rw [decodeStream_eq]
  exact ((readHeader_failsOnlyWith p stream).mono (by simp)).bind fun h =>
    ((checkHeader_failsOnlyWith p h).mono (by simp)).bind fun _ =>
    (h.samples_failsOnlyWith.mono (by simp)).bind fun _ => failsOnlyWith_ok _

/-! ### The obligations -/

/-- Settles O18: a header that is read is well-formed, and reading it fails with `FormatError` only. -/
theorem malformedHeaderRaisesFormat : Obligations.MalformedHeaderRaisesFormat := by
  intro s i q hi hs hmalformed
  cases hread : readHeader s.params s.stream with
  | ok h => exact absurd (headedStream_of_readHeader hread) (hmalformed _ _ _ _ _)
  | error e =>
    obtain rfl : e = .format := by simpa using readHeader_failsOnlyWith _ _ e hread
    exact exec_decode_of_error hi hs (decodeStream_of_header_error hread)

/-- Settles O16: what is decoded is a graymap stream, and a decode fails with one of the four errors only. -/
theorem decodeRejectsEveryOtherStream : Obligations.DecodeRejectsEveryOtherStream := by
  intro s i q hi _ hs hother
  cases hdecode : decodeStream s.params s.stream with
  | ok img => exact absurd (graymapStream_of_decodeStream hdecode) (hother img)
  | error e =>
    obtain ⟨t, hnext, hfailed⟩ := exec_decode_of_error hi hs hdecode
    exact ⟨t, e, hnext, hfailed, decodeStream_failsOnlyWith _ _ e hdecode⟩

end Sys2Proof.Machine
end

section
/-! PROOF. The encode unit (spec/41_graymap_encoder.md R170 to R181): what an encode phase stores, and what the decode
unit answers on the stream: the image, or `FormatError` for a sample above `MAXVAL`. -/

namespace Sys2Proof.Machine

/-! ### The body of the stream, by sample index -/

theorem rowMajor_eq_map {α : Type} (w h : Nat) (f : Nat → Nat → α) :
    rowMajor w h f = (List.range (w * h)).map fun k => f (k / w) (k % w) := by
  refine List.ext_getElem? fun k => ?_
  by_cases hk : k < w * h
  · obtain ⟨hrow, hcol, hindex⟩ := index_position w h k hk
    have hget := rowMajor_getElem? w h f (k / w) (k % w) hrow hcol
    rw [hindex] at hget
    rw [hget, List.getElem?_map, List.getElem?_range hk, Option.map_some]
  · rw [List.getElem?_eq_none (by simpa using hk), List.getElem?_eq_none (by simpa using hk)]

/-- One sample of a text body: its shortest spelling and the separator of its column (R176). -/
def sampleText (img : Nat → Byte) (w k : Nat) : List Byte := dec (img k).toNat ++ [separator w (k % w)]

theorem streamBody_bin (img : Nat → Byte) (w h : Nat) : streamBody .bin img w h = (List.range (w * h)).map img := by
  simp only [streamBody, rowMajor_eq_map, Nat.div_add_mod']

theorem streamBody_text (img : Nat → Byte) (w h : Nat) :
    streamBody .text img w h = (List.range (w * h)).flatMap (sampleText img w) := by
  simp only [streamBody, rowMajor_eq_map, Nat.div_add_mod', ← List.flatMap_def]
  rfl

/-! ### The phase -/

/-- The commands that encode, with the phase that does it and what follows that phase (45 R255, R259). -/
def encodes (i : Instr) (src : Src) (dst : Dst) (fmt : Fmt) (p q : Phase) : Prop :=
  (i = .encode src dst fmt ∧ p = .encode ∧ q = .none) ∨
    (i = .process fmt ∧ src = .filt ∧ dst = .out0 ∧ p = .encode ∧ q = .encode2) ∨
    (i = .process fmt ∧ src = .grad ∧ dst = .out1 ∧ p = .encode2 ∧ q = .none)

/-- An encode phase completes (60 R287), and the command goes on as R255 says. -/
theorem exec_encode {s : State} {i : Instr} {src : Src} {dst : Dst} {fmt : Fmt} {p q : Phase}
    (hi : encodes i src dst fmt p q) (hs : executes s p) :
    exec i s = .next ((phEncode src dst fmt s).finish q) := by
  obtain ⟨hbusy, hphase⟩ := hs
  rw [exec_of_busy hbusy]
  rcases hi with ⟨rfl, rfl, rfl⟩ | ⟨rfl, rfl, rfl, rfl, rfl⟩ | ⟨rfl, rfl, rfl, rfl, rfl⟩ <;>
    simp [Instr.wf, blockPhase, phasesOf, hphase, phaseNamed, nextPhase, firstPhase, PhaseOp.phase, runPhase]

/-- The destination holds the stream (R177). -/
theorem read_phEncode (src : Src) (dst : Dst) (fmt : Fmt) (s : State) (k : Nat) :
    Cells.read ((phEncode src dst fmt s).mem.bytes (dstSpace dst)) k = (s.encoded src fmt)[k]? := by
  simp [phEncode]

/-- An encode changes nothing but its destination, that one's length and its valid bit (R177). -/
theorem phEncode_frame (src : Src) (dst : Dst) (fmt : Fmt) (s : State) :
    sameBytes (fun sp _ => sp = dstSpace dst) s (phEncode src dst fmt s) ∧ sameConvFrom 0 s (phEncode src dst fmt s) ∧
      sameInputs s (phEncode src dst fmt s) ∧ sameHeader s (phEncode src dst fmt s) := by
  refine ⟨fun sp k hsp => by simp [phEncode, hsp], by simp [sameConvFrom, phEncode], ?_, by simp [sameHeader, phEncode]⟩
  cases dst <;> simp [sameInputs, phEncode, dstSpace, Memory.setBytes]

/-- Settles O36: the stream written out by sample index is the stream of the phase, whose store and frame are known. -/
theorem encodeStoresTheStream : Obligations.EncodeStoresTheStream := by
  intro s i src dst fmt p q stream hi hs herr hstream hlen
  have hencoded : s.encoded src fmt = stream := by
    rw [hstream, State.encoded, encodeStream, streamHeader]
    cases fmt with
    | bin => rw [streamBody_bin]; rfl
    | text => rw [streamBody_text]; rfl
  clear hstream
  subst hencoded
  obtain ⟨hbytes, hconv, hinputs, hheader⟩ := phEncode_frame src dst fmt s
  have hbusy : (phEncode src dst fmt s).status.state = .busy := by simpa [phEncode] using hs.1
  have herr : (phEncode src dst fmt s).err = .none := by simpa [phEncode] using herr
  refine ⟨_, exec_encode hi hs, ?_, ?_, ?_, ?_, ?_, ?_, ?_, ?_⟩
  · simp [goesOn, hbusy, herr]
  · intro k _
    rw [State.finish_mem, read_phEncode]
  · rintro rfl
    simpa [sameValid, phEncode] using hlen
  · rintro rfl
    simpa [sameValid, phEncode] using hlen
  · simpa [sameBytes] using hbytes
  · simpa [sameConvFrom] using hconv
  · simpa [sameInputs] using hinputs
  · simpa [sameHeader] using hheader

/-! ### The stream in the grammar of 30 R104 to R116 -/

theorem headerInt_dec (n : Nat) : headerInt (dec n) n := .inl ⟨n, digitString_dec n, rfl⟩

theorem gapBytes_singleton {b : Byte} (hb : wsByte b) : gapBytes [b] :=
  ⟨[[b]], by simp, by simpa using .inl ⟨b, hb, rfl⟩, rfl⟩

theorem wsByte_separator (w col : Nat) : wsByte (separator w col) := by
  unfold separator
  split <;> exact (ws_iff _).1 rfl

/-- An encoded stream has a well-formed header, and its body is the sample area (R172, R173). -/
theorem headedStream_encodeStream (p : Params) (fmt : Fmt) (img : Nat → Byte) (w h m : Nat) :
    headedStream p fmt w h m (streamBody fmt img w h) (encodeStream p fmt img w h m) := by
  have hfeed : wsByte 0x0A#8 := (ws_iff _).1 rfl
  have hspace : wsByte 0x20#8 := (ws_iff _).1 rfl
  exact ⟨_, 0x0A#8 :: streamBody fmt img w h,
    ⟨_, _, _, _, _, _, gapBytes_singleton hfeed, headerInt_dec w, gapBytes_singleton hspace, headerInt_dec h,
      gapBytes_singleton hfeed, headerInt_dec m, rfl⟩,
    .inr ⟨_, hfeed, rfl⟩, by simp [encodeStream, streamHeader]⟩

/-- Samples in range make a text area, after any whitespace: each separator is the gap before the next sample. -/
theorem textArea_flatMap_sampleText {img : Nat → Byte} {m : Nat} (w : Nat) {ks : List Nat}
    (hks : ∀ k ∈ ks, (img k).toNat ≤ m) {g : List Byte} (hg : ∀ b ∈ g, wsByte b) :
    textArea m (ks.map img) (g ++ ks.flatMap (sampleText img w)) := by
  induction ks generalizing g with
  | nil => exact .done _
  | cons k ks ih =>
    obtain ⟨hk, hks⟩ := List.forall_mem_cons.1 hks
    have hsep := wsByte_separator w (k % w)
    have htoken := textArea.token g _ _ _ _ hg (digitString_dec (img k).toNat) hk (.inr ⟨_, _, rfl, hsep⟩)
      (ih hks (g := [separator w (k % w)]) (by simpa using hsep))
    simpa [sampleText] using htoken

/-- A sample above the maximum is the first error of a text area, whatever samples in range stand before it (40 R148). -/
theorem textSamples_flatMap_sampleText {img : Nat → Byte} {m : Nat} (w : Nat) {ks : List Nat}
    (hks : ∃ k ∈ ks, m < (img k).toNat) {g : List Byte} (hg : ∀ b ∈ g, wsByte b) :
    textSamples m ks.length (g ++ ks.flatMap (sampleText img w)) = .error .format := by
  induction ks generalizing g with
  | nil => simp at hks
  | cons k ks ih =>
    have hsep := wsByte_separator w (k % w)
    have harea : g ++ (k :: ks).flatMap (sampleText img w) =
        g ++ (dec (img k).toNat ++ separator w (k % w) :: ks.flatMap (sampleText img w)) := by simp [sampleText]
    rw [List.length_cons, textSamples, harea]
    by_cases hk : m < (img k).toNat
    · rw [sampleToken_ws_append hg, sampleToken_of_bad_token (digitString_dec _)
        (noDigitFirst_of_ws ((ws_iff _).2 hsep) _) (.inl hk), except_error_bind]
    · have hks : ∃ k ∈ ks, m < (img k).toNat := by simpa [hk] using hks
      rw [← List.append_assoc, sampleToken_append hg (digitString_dec _) (by omega) (.inr ⟨_, _, rfl, hsep⟩),
        except_ok_bind]
      dsimp only
      rw [← List.singleton_append, ih hks (by simpa using hsep), except_error_bind]

/-- The body of an image with its samples in range is a sample area of them, in both variants (R175, R176). -/
theorem sampleArea_streamBody {img : Nat → Byte} {w h m : Nat} (hrange : ∀ k, k < w * h → (img k).toNat ≤ m)
    (fmt : Fmt) : sampleArea fmt m ((List.range (w * h)).map img) (streamBody fmt img w h) := by
  have hrange : ∀ k ∈ List.range (w * h), (img k).toNat ≤ m := by simpa using hrange
  cases fmt with
  | bin =>
    rw [streamBody_bin]
    exact ⟨⟨[], (List.append_nil _).symm⟩, List.forall_mem_map.2 hrange⟩
  | text =>
    rw [streamBody_text]
    exact textArea_flatMap_sampleText w hrange (g := []) (by simp)

/-- The image that a state's encode writes down, `src` being its source. -/
def State.encodedImage (s : State) (src : Src) (fmt : Fmt) : DecodedImage where
  fmt := fmt
  width := s.width.toNat
  height := s.height.toNat
  maxval := s.maxval.toNat
  samples := (List.range s.sampleCount).map (s.image src)

/-- With its samples in range, an encoded image is a graymap stream of itself (R172 to R176). -/
theorem graymapStream_encoded {s : State} (h : Inv s) (hv : s.status.vFrame1 = true) {src : Src}
    (hrange : ∀ k, k < s.sampleCount → (s.image src k).toNat ≤ s.maxval.toNat) (fmt : Fmt) :
    graymapStream s.params (s.encodedImage src fmt) (s.encoded src fmt) := by
  obtain ⟨hwidth, hheight, hsize, -⟩ := h.image hv
  exact ⟨hwidth, hheight, Nat.le_of_lt_succ s.maxval.isLt, hsize, by simp [State.encodedImage, State.sampleCount], _,
    headedStream_encodeStream .., sampleArea_streamBody hrange fmt⟩

/-- A sample above the maximum is the error of the samples, in both variants (40 R147, R148). -/
theorem samples_streamBody_above {img : Nat → Byte} {w h m : Nat} (habove : ∃ k, k < w * h ∧ m < (img k).toNat)
    (fmt : Fmt) : Header.samples ⟨fmt, w, h, m, streamBody fmt img w h⟩ = .error .format := by
  have hk : ∃ k ∈ List.range (w * h), m < (img k).toNat := by simpa using habove
  cases fmt with
  | bin =>
    rw [streamBody_bin]
    exact binarySamples_of_range (by simp) (by simpa [List.take_of_length_le] using habove)
  | text =>
    have herr := textSamples_flatMap_sampleText w hk (g := []) (by simp)
    rw [List.length_range] at herr
    rw [streamBody_text]
    exact herr

/-! ### Decoding what was encoded -/

/-- The bytes that an encode leaves in its destination, taken as input of the written length, are its stream. -/
theorem stream_eq_encoded {u s : State} {src : Src} {dst : Dst} {fmt : Fmt} (h : Inv u) (hv : u.status.vFrame1 = true)
    (hlen : s.inLen = BitVec.ofNat 32 (u.encoded src fmt).length)
    (hbytes : ∀ k, k < s.inLen.toNat →
      Cells.read s.mem.inp k = Cells.read ((phEncode src dst fmt u).mem.bytes (dstSpace dst)) k) :
    s.stream = u.encoded src fmt := by
  obtain ⟨-, -, -, hout, -⟩ := h.params
  have hlen : s.inLen.toNat = (u.encoded src fmt).length := by
    rw [hlen, BitVec.toNat_ofNat, Nat.mod_eq_of_lt ((encodeNeverOverflows u src fmt h hv).trans_lt hout)]
  refine List.ext_getElem (by simpa using hlen) fun k hk hk' => ?_
  have hread := hbytes k (by simpa using hk)
  rw [read_phEncode, List.getElem?_eq_getElem hk'] at hread
  simp [State.stream, State.byteAt, Memory.bytes, hread]

/-- Settles O38: the stream in `IN` is a graymap stream of the image, so the decode commits it. -/
theorem decodeOfEncodeIsTheImage : Obligations.DecodeOfEncodeIsTheImage := by
  intro u u' s src dst fmt hinv hu hsrc hrange hexec hparams hs hlen hbytes
  have hv := hinv.vFrame1_of_sourceValid hsrc
  have ⟨_, _, _, _, _, hmagic⟩ := hinv.params
  obtain rfl : (phEncode src dst fmt u).finish .none = u' := by
    simpa [exec_encode (.inl ⟨rfl, rfl, rfl⟩) hu] using hexec
  rw [State.finish_mem] at hbytes
  have hlen : s.inLen = BitVec.ofNat 32 (u.encoded src fmt).length := by
    cases dst <;> simpa [phEncode] using hlen
  have himg : decodeStream s.params s.stream = .ok (u.encodedImage src fmt) := by
    rw [hparams, stream_eq_encoded hinv hv hlen hbytes]
    exact decodeStream_of_graymapStream hmagic (graymapStream_encoded hinv hv hrange fmt)
  have hframe1 : ∀ k, k < u.sampleCount →
      Cells.read (Cells.ofList (u.encodedImage src fmt).samples) k = some (u.image src k) := by
    intro k hk
    simp [State.encodedImage, hk]
  exact ⟨_, exec_decode_of_ok (.inl ⟨rfl, rfl⟩) hs himg, by simpa [State.encodedImage, Memory.setBytes] using hframe1⟩

/-- Settles O39: the header passes the checks, and the sample above `MAXVAL` fails. -/
theorem streamAboveMaxvalIsRejected : Obligations.StreamAboveMaxvalIsRejected := by
  intro u s src fmt hinv hv habove hparams hs hstream
  obtain ⟨hwidth, hheight, hsize, -⟩ := hinv.image hv
  have hheader : headedStream s.params fmt u.width.toNat u.height.toNat u.maxval.toNat
      (streamBody fmt (u.image src) u.width.toNat u.height.toNat) s.stream := by
    rw [hstream, hparams]
    exact headedStream_encodeStream ..
  exact exec_decode_of_samples_error (.inl ⟨rfl, rfl⟩) (hparams ▸ hinv.params) hs hheader (Int.natCast_pos.2 hwidth)
    (Int.natCast_pos.2 hheight) (Int.natCast_nonneg _) (Int.ofNat_le.2 (Nat.le_of_lt_succ u.maxval.isLt))
    (Int.ofNat_le.2 (hparams ▸ hsize)) (samples_streamBody_above habove fmt)

end Sys2Proof.Machine
end

section
/-! PROOF. The division of the convolution engine (spec/42_convolution_engine.md R197), the bounds of its results (R199),
and what `PH_CONVOLVE` stores and leaves unchanged (R198, R201). -/

namespace Sys2Proof.Machine

/-! ### Truncation -/

/-- Truncation of a negative accumulation is the opposite of the floor of its absolute value (R197). -/
theorem tdiv_of_neg {a d : Int} (ha : a < 0) : tdiv a d = -(-a / d) := by
  simp [tdiv, ha]

/-- Settles O25: the quotient is a floor on either side of 0, of `a` or of `-a`. -/
theorem tdivTruncatesTowardZero : Obligations.TdivTruncatesTowardZero := by
  intro a d hd
  have hpos : 0 < d := hd
  constructor
  · intro ha
    rw [tdiv_of_nonneg ha]
    exact ⟨Int.ediv_mul_le a hpos.ne', Int.lt_ediv_add_one_mul_self a hpos, Int.ediv_nonneg ha hpos.le⟩
  · intro ha
    rw [tdiv_of_neg ha]
    have hle : -a / d * d ≤ -a := Int.ediv_mul_le (-a) hpos.ne'
    have hlt : -a < (-a / d + 1) * d := Int.lt_ediv_add_one_mul_self (-a) hpos
    have hnonneg : 0 ≤ -a / d := Int.ediv_nonneg (by omega) hpos.le
    exact ⟨by linarith, by linarith, by omega⟩

/-! ### Bounds -/

theorem conv_sobelx (img : Nat → Byte) (w h row col : Nat) :
    conv img w h .sobelx row col = sobelxSum (neighbour img w h row col) :=
  (tdiv_one _).trans (acc_sobelx img w h row col)

theorem conv_sobely (img : Nat → Byte) (w h row col : Nat) :
    conv img w h .sobely row col = sobelySum (neighbour img w h row col) :=
  (tdiv_one _).trans (acc_sobely img w h row col)

/-- The positive weights of `SOBELX` sum to 4, and so do the negative ones. -/
theorem sobelxSum_bounds {s : Int → Int → Int} {m : Int} (hs : ∀ dr dc, 0 ≤ s dr dc ∧ s dr dc ≤ m) :
    -(4 * m) ≤ sobelxSum s ∧ sobelxSum s ≤ 4 * m := by
  have hnw := hs (-1) (-1)
  have hne := hs (-1) 1
  have hw := hs 0 (-1)
  have he := hs 0 1
  have hsw := hs 1 (-1)
  have hse := hs 1 1
  unfold sobelxSum
  omega

/-- `SOBELY` is `SOBELX` with rows and columns exchanged (R40). -/
theorem sobelySum_eq_sobelxSum (s : Int → Int → Int) : sobelySum s = sobelxSum fun dr dc => s dc dr := rfl

/-- Settles O27: every sample is a byte, and the weights of a kernel bound its sum. -/
theorem convStaysInItsBounds : Obligations.ConvStaysInItsBounds := by
  intro img w h row col
  have hbyte : ∀ k, k < w * h → (img k).toNat ≤ 255 := fun k _ => Nat.le_of_lt_succ (img k).isLt
  have hs := neighbour_bounds hbyte row col
  obtain ⟨hacc, hacc'⟩ := acc_gauss5_bounds hbyte row col
  obtain ⟨hgauss, hgauss'⟩ := conv_gauss5_bounds hbyte row col
  obtain ⟨hx, hx'⟩ := sobelxSum_bounds hs
  obtain ⟨hy, hy'⟩ := sobelxSum_bounds fun dr dc => hs dc dr
  rw [conv_sobelx, conv_sobely, sobelySum_eq_sobelxSum]
  exact ⟨hacc, hacc', hgauss, hgauss', hx, hx', hy, hy'⟩

/-- No result needs more than a `CONV` element holds (R198, R199). -/
theorem toInt_ofInt_conv (img : Nat → Byte) (w h : Nat) (k : KIdx) (row col : Nat) :
    (BitVec.ofInt 32 (conv img w h k row col)).toInt = conv img w h k row col := by
  obtain ⟨-, -, hgauss, hgauss', hx, hx', hy, hy'⟩ := convStaysInItsBounds img w h row col
  have hbounds : -1020 ≤ conv img w h k row col ∧ conv img w h k row col ≤ 1020 := by
    cases k with
    | gauss5 => omega
    | sobelx => exact ⟨hx, hx'⟩
    | sobely => exact ⟨hy, hy'⟩
  exact BitVec.toInt_ofInt_eq_self (by decide) (by omega) (by omega)

/-! ### The phase -/

/-- `CONVOLVE` has one phase, and it completes (60 R287). -/
theorem exec_convolve {s : State} (hs : executes s .convolve) (src : Src) (k : KIdx) :
    exec (.convolve src k) s = .next ((phConvolve src k s).finish .none) := by
  obtain ⟨hbusy, hphase⟩ := hs
  simp [exec_of_busy hbusy, Instr.wf, blockPhase, phasesOf, hphase, phaseNamed, nextPhase, firstPhase, PhaseOp.phase,
    runPhase]

/-- `CONV` holds the result of every position, at its row-major index (R201). -/
theorem read_phConvolve (src : Src) (k : KIdx) (s : State) {row col : Nat} (hrow : row < s.height.toNat)
    (hcol : col < s.width.toNat) :
    Cells.read (phConvolve src k s).mem.conv (row * s.width.toNat + col) =
      some (BitVec.ofInt 32 (conv (s.image src) s.width.toNat s.height.toNat k row col)) := by
  have hget := rowMajor_getElem? s.width.toNat s.height.toNat
    (fun row col => BitVec.ofInt 32 (conv (s.image src) s.width.toNat s.height.toNat k row col)) row col hrow hcol
  have hindex := (List.getElem?_eq_some_iff.1 hget).1
  exact (Cells.read_overlay_lt _ _ _ hindex).trans hget

/-- A convolution leaves `CONV` from the sample count on, and everything else but `V_CONV` (R201). -/
theorem phConvolve_frame (src : Src) (k : KIdx) (s : State) :
    sameConvFrom s.sampleCount s (phConvolve src k s) ∧ sameBytes noByte s (phConvolve src k s) ∧
      sameInputs s (phConvolve src k s) ∧ sameHeader s (phConvolve src k s) ∧ sameLengths s (phConvolve src k s) ∧
      sameValid { s with status := { s.status with vConv := true } } (phConvolve src k s) := by
  refine ⟨fun i hi => Cells.read_overlay_ge _ _ i ?_, ?_, ?_, ?_, ?_, ?_⟩
  · rwa [convImage_length]
  · simp [sameBytes, phConvolve]
  · simp [sameInputs, phConvolve]
  · simp [sameHeader, phConvolve]
  · simp [sameLengths, phConvolve]
  · simp [sameValid, phConvolve]

/-- Settles O30: the phase stores every result, which fits its element, and leaves the rest. -/
theorem convolveStoresEveryPosition : Obligations.ConvolveStoresEveryPosition := by
  intro s src k hs herr
  obtain ⟨hconv, hbytes, hinputs, hheader, hlengths, hvalid⟩ := phConvolve_frame src k s
  refine ⟨_, exec_convolve hs src k, ?_, ?_, ?_, ?_, ?_, ?_, ?_, ?_, ?_⟩
  · simpa [goesOn, phConvolve] using herr
  · simp [phConvolve]
  · intro row col hrow hcol
    rw [State.finish_mem]
    exact ⟨_, read_phConvolve src k s hrow hcol, toInt_ofInt_conv ..⟩
  · simpa [sameConvFrom] using hconv
  · simpa [sameBytes] using hbytes
  · simpa [sameInputs] using hinputs
  · simpa [sameHeader] using hheader
  · simpa [sameLengths] using hlengths
  · simpa [sameValid] using hvalid

end Sys2Proof.Machine
end

section
/-! PROOF. The Gaussian blur stage (spec/43_gaussian_blur.md R215 to R222): how a blurred sample compares with the samples
of the image (R220), and what `PH_BLUR` stores and leaves unchanged (R217, R218). -/

namespace Sys2Proof.Machine

/-! ### The largest sample -/

/-- Settles O28: the weights are nonnegative and sum to the divisor. -/
theorem blurNeverExceedsTheLargestSample : Obligations.BlurNeverExceedsTheLargestSample := by
  intro img w h row col m hm
  obtain ⟨-, hle⟩ := conv_gauss5_bounds hm row col
  exact hle

/-! ### A uniform image -/

/-- The accumulation is nonnegative, so its quotient by the divisor 159 is a floor (R197, 10 R40). -/
theorem conv_gauss5 (img : Nat → Byte) (w h row col : Nat) :
    conv img w h .gauss5 row col = gauss5Sum (neighbour img w h row col) / 159 := by
  rw [conv, tdiv_of_nonneg (acc_gauss5_nonneg img w h row col), acc_gauss5]
  rfl

/-- The index of a position lies below the sample count (spec/00_scope.md R15). -/
theorem index_lt_sampleCount {w h row col : Nat} (hrow : row < h) (hcol : col < w) : row * w + col < w * h := by
  have hget := rowMajor_getElem? w h (fun _ _ => ()) row col hrow hcol
  simpa using (List.getElem?_eq_some_iff.1 hget).1

/-- The padded samples of an image of value `v` are `v` inside the image and 0 outside (R194). -/
theorem neighbour_uniform {img : Nat → Byte} {w h v : Nat} (hv : ∀ k, k < w * h → (img k).toNat = v) (row col : Nat)
    (dr dc : Int) :
    neighbour img w h row col dr dc =
      if 0 ≤ (row : Int) + dr ∧ (row : Int) + dr < h ∧ 0 ≤ (col : Int) + dc ∧ (col : Int) + dc < w then (v : Int)
      else 0 := by
  unfold neighbour pix
  split
  · next hin => rw [hv _ (index_lt_sampleCount (by omega) (by omega))]
  · rfl

/-- The sum reads nothing beyond the footprint (R191). -/
theorem gauss5Sum_congr {s s' : Int → Int → Int}
    (h : ∀ dr dc, -2 ≤ dr → dr ≤ 2 → -2 ≤ dc → dc ≤ 2 → s dr dc = s' dr dc) : gauss5Sum s = gauss5Sum s' := by
  simp [gauss5Sum, h]

/-- With full kernel support every sample of the footprint is `v`. -/
theorem conv_gauss5_of_support {img : Nat → Byte} {w h v row col : Nat} (hv : ∀ k, k < w * h → (img k).toNat = v)
    (hsupport : 2 ≤ row ∧ row + 3 ≤ h ∧ 2 ≤ col ∧ col + 3 ≤ w) : conv img w h .gauss5 row col = v := by
  have hfootprint : gauss5Sum (neighbour img w h row col) = gauss5Sum fun _ _ => (v : Int) :=
    gauss5Sum_congr fun dr dc _ _ _ _ => by rw [neighbour_uniform hv, if_pos (by omega)]
  rw [conv_gauss5, hfootprint, gauss5Sum_const]
  omega

/-- The four ends of the footprint's axes: a position without full support misses the sample at one of them. -/
def axisEnds : List (Int × Int) := [(-2, 0), (2, 0), (0, -2), (0, 2)]

/-- An axis end has weight 5 of 159 (10 R40). -/
theorem gauss5Sum_hole {a b : Int} (hab : (a, b) ∈ axisEnds) (m : Int) :
    gauss5Sum (fun dr dc => if dr = a ∧ dc = b then 0 else m) = 154 * m := by
  simp only [axisEnds, List.mem_cons, Prod.mk.injEq, List.not_mem_nil, or_false] at hab
  rcases hab with ⟨rfl, rfl⟩ | ⟨rfl, rfl⟩ | ⟨rfl, rfl⟩ | ⟨rfl, rfl⟩ <;> simp [gauss5Sum] <;> ring

/-- Where the sample at an axis end is 0, the result is below the largest sample. -/
theorem conv_gauss5_lt_of_hole {img : Nat → Byte} {w h m row col : Nat} (hm : ∀ k, k < w * h → (img k).toNat ≤ m)
    (hpos : 1 ≤ m) {a b : Int} (hab : (a, b) ∈ axisEnds) (hzero : neighbour img w h row col a b = 0) :
    conv img w h .gauss5 row col < m := by
  have hsum : gauss5Sum (neighbour img w h row col) ≤ 154 * m := by
    rw [← gauss5Sum_hole hab]
    refine gauss5Sum_mono fun dr dc => ?_
    split
    · next hend =>
      obtain ⟨rfl, rfl⟩ := hend
      exact hzero.le
    · exact (neighbour_bounds hm row col dr dc).2
  rw [conv_gauss5]
  omega

/-- Without full kernel support an axis end of the footprint lies outside the image. -/
theorem exists_axisEnd_outside {w h row col : Nat} (hborder : ¬ (2 ≤ row ∧ row + 3 ≤ h ∧ 2 ≤ col ∧ col + 3 ≤ w)) :
    ∃ a b : Int, (a, b) ∈ axisEnds ∧
      ¬ (0 ≤ (row : Int) + a ∧ (row : Int) + a < h ∧ 0 ≤ (col : Int) + b ∧ (col : Int) + b < w) := by
  have hside : row < 2 ∨ h < row + 3 ∨ col < 2 ∨ w < col + 3 := by omega
  rcases hside with htop | hbottom | hleft | hright
  · exact ⟨-2, 0, by simp [axisEnds], by omega⟩
  · exact ⟨2, 0, by simp [axisEnds], by omega⟩
  · exact ⟨0, -2, by simp [axisEnds], by omega⟩
  · exact ⟨0, 2, by simp [axisEnds], by omega⟩

/-- Settles O29: full support reads `v` everywhere; any other position misses at least the weight of one axis end. -/
theorem uniformImageDarkensAtTheBorder : Obligations.UniformImageDarkensAtTheBorder := by
  intro img w h row col v hv _ _ hpos
  refine ⟨conv_gauss5_of_support hv, fun hborder => ?_⟩
  obtain ⟨a, b, hab, houtside⟩ := exists_axisEnd_outside hborder
  refine conv_gauss5_lt_of_hole (fun k hk => (hv k hk).le) hpos hab ?_
  rw [neighbour_uniform hv, if_neg houtside]

/-! ### The phase -/

/-- The commands that blur, with what follows that phase (45 R255, R259). -/
def blurs (i : Instr) (q : Phase) : Prop := (i = .blur ∧ q = .none) ∨ (∃ fmt, i = .process fmt ∧ q = .sobel)

/-- A blur completes (60 R287), and the command goes on as R255 says. -/
theorem exec_blur {s : State} {i : Instr} {q : Phase} (hi : blurs i q) (hs : executes s .blur) :
    exec i s = .next ((phBlur s).finish q) := by
  obtain ⟨hbusy, hphase⟩ := hs
  rw [exec_of_busy hbusy]
  rcases hi with ⟨rfl, rfl⟩ | ⟨fmt, rfl, rfl⟩ <;>
    simp [Instr.wf, blockPhase, phasesOf, hphase, phaseNamed, nextPhase, firstPhase, PhaseOp.phase, runPhase]

/-- A stored image is read back at its row-major indices (spec/00_scope.md R15, spec/20_memory.md R67). -/
theorem Cells.read_overlay_rowMajor {n w h : Nat} (f : Nat → Nat → BitVec n) (m : Cells n) {row col : Nat}
    (hrow : row < h) (hcol : col < w) :
    Cells.read (Cells.overlay (rowMajor w h f) m) (row * w + col) = some (f row col) := by
  rw [Cells.read_overlay_lt _ _ _ (by simpa using index_lt_sampleCount hrow hcol)]
  exact rowMajor_getElem? w h f row col hrow hcol

/-- `FILT` holds the result of every position, stored as it is (R217, R218). -/
theorem read_phBlur (s : State) {row col : Nat} (hrow : row < s.height.toNat) (hcol : col < s.width.toNat) :
    Cells.read (phBlur s).mem.filt (row * s.width.toNat + col) =
      some (BitVec.ofInt 8 (conv (s.image .frame1) s.width.toNat s.height.toNat .gauss5 row col)) :=
  Cells.read_overlay_rowMajor _ _ hrow hcol

/-- No `GAUSS5` result needs more than a byte (R199, R218). -/
theorem toNat_ofInt_conv_gauss5 (img : Nat → Byte) (w h row col : Nat) :
    ((BitVec.ofInt 8 (conv img w h .gauss5 row col)).toNat : Int) = conv img w h .gauss5 row col := by
  obtain ⟨-, -, hnonneg, hle, -⟩ := convStaysInItsBounds img w h row col
  rw [BitVec.toNat_ofInt]
  omega

/-- A store writes only the elements of its buffer below the length of what it stores (spec/20_memory.md R67). -/
theorem sameBytes_storeBytes (s : State) (sp : ByteSpace) (vs : List Byte) :
    sameBytes (fun sp' k => sp' = sp ∧ k < vs.length) s (s.storeBytes sp vs) := by
  intro sp' k hk
  rw [State.storeBytes_mem, Memory.bytes_setBytes]
  split
  · next hsp =>
    subst hsp
    exact Cells.read_overlay_ge _ _ k (by simpa using hk)
  · rfl

/-- A blur leaves everything but the samples of `FILT` and `V_FILT` (R217). -/
theorem phBlur_frame (s : State) :
    sameBytes (fun sp k => sp = .filt ∧ k < s.sampleCount) s (phBlur s) ∧ sameConvFrom 0 s (phBlur s) ∧
      sameInputs s (phBlur s) ∧ sameHeader s (phBlur s) ∧ sameLengths s (phBlur s) ∧
      sameValid { s with status := { s.status with vFilt := true } } (phBlur s) := by
  refine ⟨?_, ?_, ?_, ?_, ?_, ?_⟩
  · have hstore := sameBytes_storeBytes s .filt (blurImage (s.image .frame1) s.width.toNat s.height.toNat)
    rwa [blurImage_length] at hstore
  · simp [sameConvFrom, phBlur]
  · simp [sameInputs, phBlur, Memory.setBytes]
  · simp [sameHeader, phBlur]
  · simp [sameLengths, phBlur]
  · simp [sameValid, phBlur]

/-- Settles O31: the phase stores every result, which fits its element, and leaves the rest. -/
theorem blurStoresEveryPosition : Obligations.BlurStoresEveryPosition := by
  intro s i q hi hs herr
  obtain ⟨hbytes, hconv, hinputs, hheader, hlengths, hvalid⟩ := phBlur_frame s
  refine ⟨_, exec_blur hi hs, ?_, ?_, ?_, ?_, ?_, ?_, ?_, ?_, ?_⟩
  · have hbusy : (phBlur s).status.state = .busy := by simpa [phBlur] using hs.1
    have herr : (phBlur s).err = .none := by simpa [phBlur] using herr
    simp [goesOn, hbusy, herr]
  · simp [phBlur]
  · intro row col hrow hcol
    rw [State.finish_mem]
    exact ⟨_, read_phBlur s hrow hcol, toNat_ofInt_conv_gauss5 ..⟩
  · simpa [sameBytes] using hbytes
  · simpa [sameConvFrom] using hconv
  · simpa [sameInputs] using hinputs
  · simpa [sameHeader] using hheader
  · simpa [sameLengths] using hlengths
  · simpa [sameValid] using hvalid

end Sys2Proof.Machine
end

section
/-! PROOF. The Sobel gradient-magnitude stage (spec/44_sobel_gradient.md R230 to R242): the rounded square root (R235),
the gradient under a constant offset (R240 (e)), and what `PH_SOBEL` stores and leaves unchanged (R239). -/

namespace Sys2Proof.Machine

/-! ### The square root -/

/-- The search keeps the root of `n` in `[s, s + 2 ^ bits)` and halves that range with each bit. -/
theorem isqrtBits_bounds {n s : Nat} (bits : Nat) (hle : s * s ≤ n) (hlt : n < (s + 2 ^ bits) * (s + 2 ^ bits)) :
    isqrtBits n bits s * isqrtBits n bits s ≤ n ∧ n < (isqrtBits n bits s + 1) * (isqrtBits n bits s + 1) := by
  induction bits generalizing s with
  | zero => exact ⟨hle, hlt⟩
  | succ bits ih =>
    rw [isqrtBits]
    split
    · next hbit => exact ih hbit (by rwa [add_assoc, ← two_mul, ← pow_succ'])
    · next hbit => exact ih hle (not_le.1 hbit)

/-- The bits searched are enough: `n` is below the square of the first power of 2 left out. -/
theorem lt_isqrt_range_sq (n : Nat) : n < 2 ^ (n.log2 / 2 + 1) * 2 ^ (n.log2 / 2 + 1) :=
  calc n < 2 ^ (n.log2 + 1) := Nat.lt_log2_self
    _ ≤ 2 ^ (n.log2 / 2 + 1 + (n.log2 / 2 + 1)) := Nat.pow_le_pow_right (by decide) (by omega)
    _ = _ := pow_add ..

/-- `isqrt n` is the largest integer whose square is at most `n` (spec/00_scope.md R13). -/
theorem isqrt_bounds (n : Nat) : isqrt n * isqrt n ≤ n ∧ n < (isqrt n + 1) * (isqrt n + 1) :=
  isqrtBits_bounds _ n.zero_le (by simpa using lt_isqrt_range_sq n)

/-- `rsqrt n` is less than 1/2 from the square root of `n`: the root of `n` is above `r + 1/2` just if `n > r² + r`. -/
theorem rsqrt_bounds (n : Nat) :
    4 * n < (2 * rsqrt n + 1) ^ 2 ∧ (rsqrt n = 0 ∨ (2 * (rsqrt n : Int) - 1) ^ 2 < 4 * n) := by
  obtain ⟨hle, hlt⟩ := isqrt_bounds n
  unfold rsqrt
  generalize isqrt n = r at *
  split
  · next hup =>
    have hup : r * r + r < n := by omega
    refine ⟨by nlinarith, .inr ?_⟩
    push_cast
    nlinarith
  · next hdown =>
    have hdown : n ≤ r * r + r := by omega
    refine ⟨by nlinarith, (Nat.eq_zero_or_pos r).imp_right fun hpos => ?_⟩
    zify at hle hpos
    nlinarith

/-- Settles O33: the root is found bit by bit and rounded up past the half. -/
theorem rsqrtIsTheNearestInteger : Obligations.RsqrtIsTheNearestInteger := by
  intro n
  obtain ⟨hle, hlt⟩ := isqrt_bounds n
  obtain ⟨habove, hbelow⟩ := rsqrt_bounds n
  refine ⟨hle, hlt, habove, or_iff_not_imp_left.2 fun hne => ?_⟩
  have hpos : 1 ≤ 2 * rsqrt n := by omega
  zify [hpos]
  exact hbelow.resolve_left hne

/-! ### The gradient at a position -/

theorem gradient_of_interior {w h row col : Nat} (hin : interior w h row col) (img : Nat → Byte) :
    gradient img w h row col = min (rsqrt (gradientSquare img w h row col)) 255 := if_pos hin

theorem gradient_of_border {w h row col : Nat} (hborder : ¬ interior w h row col) (img : Nat → Byte) :
    gradient img w h row col = 0 := if_neg hborder

/-- A sum of squares is no smaller than 0, so `n` of R234 loses nothing as a natural. -/
theorem gradientSquare_cast (img : Nat → Byte) (w h row col : Nat) :
    (gradientSquare img w h row col : Int) = conv img w h .sobelx row col ^ 2 + conv img w h .sobely row col ^ 2 := by
  simp only [gradientSquare, ← sq]
  exact Int.toNat_of_nonneg (by positivity)

/-- The clamped magnitude fits its byte (R236). -/
theorem toNat_ofNat_gradient (img : Nat → Byte) (w h row col : Nat) :
    (BitVec.ofNat 8 (gradient img w h row col)).toNat = gradient img w h row col := by
  have hle : gradient img w h row col ≤ 255 := by
    unfold gradient
    split
    · exact min_le_right ..
    · exact Nat.zero_le _
  exact Nat.mod_eq_of_lt (by omega)

/-! ### A constant offset -/

/-- The weights of `SOBELX` sum to 0 over its 3×3 footprint, so a constant cancels (R240 (e)). -/
theorem sobelxSum_offset {s s' : Int → Int → Int} {d : Int}
    (h : ∀ dr dc, -1 ≤ dr ∧ dr ≤ 1 → -1 ≤ dc ∧ dc ≤ 1 → s' dr dc = s dr dc + d) :
    sobelxSum s' = sobelxSum s := by
  simp [sobelxSum, h]

/-- The footprint of an interior position has no padding, so every sample in it takes the offset (R233). -/
theorem neighbour_offset {img img' : Nat → Byte} {w h d row col : Nat}
    (hd : ∀ k, k < w * h → (img' k).toNat = (img k).toNat + d) (hin : interior w h row col) {dr dc : Int}
    (hdr : -1 ≤ dr ∧ dr ≤ 1) (hdc : -1 ≤ dc ∧ dc ≤ 1) :
    neighbour img' w h row col dr dc = neighbour img w h row col dr dc + d := by
  have hin : 0 ≤ (row : Int) + dr ∧ (row : Int) + dr < h ∧ 0 ≤ (col : Int) + dc ∧ (col : Int) + dc < w := by
    omega
  simp only [neighbour, pix, if_pos hin]
  rw [hd _ (index_lt_sampleCount (by omega) (by omega)), Nat.cast_add]

theorem gradientSquare_offset {img img' : Nat → Byte} {w h d row col : Nat}
    (hd : ∀ k, k < w * h → (img' k).toNat = (img k).toNat + d) (hin : interior w h row col) :
    gradientSquare img' w h row col = gradientSquare img w h row col := by
  have hx : conv img' w h .sobelx row col = conv img w h .sobelx row col := by
    rw [conv_sobelx, conv_sobelx]
    exact sobelxSum_offset fun dr dc hdr hdc => neighbour_offset hd hin hdr hdc
  have hy : conv img' w h .sobely row col = conv img w h .sobely row col := by
    rw [conv_sobely, conv_sobely, sobelySum_eq_sobelxSum, sobelySum_eq_sobelxSum]
    exact sobelxSum_offset fun dr dc hdr hdc => neighbour_offset hd hin hdc hdr
  rw [gradientSquare, gradientSquare, hx, hy]

/-- Settles O34: inside, both derivatives cancel the offset; the border is 0 in either image. -/
theorem gradientIgnoresAConstantOffset : Obligations.GradientIgnoresAConstantOffset := by
  intro img img' w h d hd
  refine congrArg (rowMajor w h) (funext fun row => funext fun col => congrArg (BitVec.ofNat 8) ?_)
  by_cases hin : interior w h row col
  · rw [gradient_of_interior hin, gradient_of_interior hin, gradientSquare_offset hd hin]
  · rw [gradient_of_border hin, gradient_of_border hin]

/-! ### The phase -/

/-- The commands that take the gradient of `src`, with what follows that phase (45 R255, R259). -/
def takesGradient (i : Instr) (src : Src) (q : Phase) : Prop :=
  (i = .sobel src ∧ src ≠ .grad ∧ q = .none) ∨ (∃ fmt, i = .process fmt ∧ src = .filt ∧ q = .encode)

/-- The phase completes (60 R287), and the command goes on as R255 says. -/
theorem exec_sobel {s : State} {i : Instr} {src : Src} {q : Phase} (hi : takesGradient i src q)
    (hs : executes s .sobel) : exec i s = .next ((phSobel src s).finish q) := by
  obtain ⟨hbusy, hphase⟩ := hs
  rw [exec_of_busy hbusy]
  rcases hi with ⟨rfl, hsrc, rfl⟩ | ⟨fmt, rfl, rfl, rfl⟩
  · have hwf : (Instr.sobel src).wf = true := by
      cases src with
      | grad => exact absurd rfl hsrc
      | frame1 | filt => rfl
    simp [hwf, blockPhase, phasesOf, hphase, phaseNamed, nextPhase, firstPhase, PhaseOp.phase, runPhase]
  · simp [Instr.wf, blockPhase, phasesOf, hphase, phaseNamed, nextPhase, firstPhase, PhaseOp.phase, runPhase]

/-- `GRAD` holds the gradient of every position (R239). -/
theorem read_phSobel (src : Src) (s : State) {row col : Nat} (hrow : row < s.height.toNat)
    (hcol : col < s.width.toNat) :
    Cells.read (phSobel src s).mem.grad (row * s.width.toNat + col) =
      some (BitVec.ofNat 8 (gradient (s.image src) s.width.toNat s.height.toNat row col)) :=
  Cells.read_overlay_rowMajor _ _ hrow hcol

/-- The phase and its completion leave everything but the samples of `GRAD`, `V_GRAD`, `STATE` and `PHASE` (R239, 45
R257). -/
theorem phSobel_finish_frame (src : Src) (s : State) (q : Phase) :
    sameBytes (fun sp k => sp = .grad ∧ k < s.sampleCount) s ((phSobel src s).finish q) ∧
      sameConvFrom 0 s ((phSobel src s).finish q) ∧ sameInputs s ((phSobel src s).finish q) ∧
      sameHeader s ((phSobel src s).finish q) ∧ sameLengths s ((phSobel src s).finish q) ∧
      sameValid { s with status := { s.status with vGrad := true } } ((phSobel src s).finish q) := by
  refine ⟨?_, ?_, ?_, ?_, ?_, ?_⟩
  · have hstore := sameBytes_storeBytes s .grad (sobelImage (s.image src) s.width.toNat s.height.toNat)
    rw [sobelImage_length] at hstore
    simpa [sameBytes, phSobel, State.sampleCount] using hstore
  · simp [sameConvFrom, phSobel]
  · simp [sameInputs, phSobel, Memory.setBytes]
  · simp [sameHeader, phSobel]
  · simp [sameLengths, phSobel]
  · simp [sameValid, phSobel]

/-- Settles O32: inside, the stored byte is the rounded root, clamped, which fits it; the rest is left. -/
theorem sobelStoresTheClampedMagnitude : Obligations.SobelStoresTheClampedMagnitude := by
  intro s i src q hi hs herr
  refine ⟨_, exec_sobel hi hs, ?_, ?_, ?_, phSobel_finish_frame src s q⟩
  · have hbusy : (phSobel src s).status.state = .busy := by simpa [phSobel] using hs.1
    have herr : (phSobel src s).err = .none := by simpa [phSobel] using herr
    simp [goesOn, hbusy, herr]
  · simp [phSobel]
  · intro row col hrow hcol
    rw [State.finish_mem]
    refine ⟨_, read_phSobel src s hrow hcol, fun hborder => ?_, fun hin => ?_⟩
    · rw [gradient_of_border hborder]
      rfl
    · obtain ⟨habove, hbelow⟩ := rsqrt_bounds (gradientSquare (s.image src) s.width.toNat s.height.toNat row col)
      rw [toNat_ofNat_gradient, gradient_of_interior hin, ← gradientSquare_cast]
      exact ⟨_, rsqrt _, rfl, Int.natCast_nonneg _, by exact_mod_cast hbelow, by exact_mod_cast habove,
        Nat.cast_min _ _⟩

end Sys2Proof.Machine
end

section
/-! PROOF. Command acceptance (spec/45_pipeline_control.md R250 to R254) and whose step runs a command (R256). -/

namespace Sys2Proof.Machine

/-! ### The step and the fetch -/

/-- A host write to register 0 is one to `CMD` (R250). -/
theorem step_of_command {s : State} {c : Word} {rest : List Turn} (hscript : s.script = .host (.writeReg 0 c) :: rest) :
    step s = hostWriteCmd c { s with script := rest } :=
  step_of_access hscript

/-- A legal word is stored and its command runs (R250). -/
theorem hostWriteCmd_of_ok {s : State} {c : Word} {i : Instr} (hbusy : s.status.state ≠ .busy)
    (hdecode : decode c = .ok i) : hostWriteCmd c s = exec i { s with cmd := c } := by
  simp [hostWriteCmd, hbusy, hdecode]

/-- An illegal word is stored and raises `IllegalCommandError` (R251). -/
theorem hostWriteCmd_of_error {s : State} {c : Word} {e : DecodeError} (hbusy : s.status.state ≠ .busy)
    (hdecode : decode c = .error e) :
    hostWriteCmd c s = .next (({ s with cmd := c } : State).raise .illegalCommand) := by
  simp [hostWriteCmd, hbusy, hdecode]

/-- The block's step runs the command in `CMD` (R256). -/
theorem blockTurn_of_ok {s : State} {i : Instr} (hbusy : s.status.state = .busy) (hdecode : decode s.cmd = .ok i) :
    blockTurn s = exec i s.tick := by
  simp [blockTurn, hbusy, hdecode]

theorem step_of_empty {s : State} (hscript : s.script = []) : step s = blockTurn s := by
  simp only [step, transitionOf, hscript]

theorem step_of_block {s : State} {rest : List Turn} (hscript : s.script = .block :: rest) :
    step s = blockTurn { s with script := rest } := by
  simp only [step, transitionOf, hscript]

/-- Nothing comes between the block and its next steps: the script is empty, or the host polls (log entries 2, 23). -/
def undisturbed (script : List Turn) : Prop := script = [] ∨ ∃ rest, script = .poll :: rest

/-- An undisturbed block takes its step and leaves the script as it is. -/
theorem step_of_undisturbed {s : State} (hbusy : s.status.state = .busy) (hscript : undisturbed s.script) :
    step s = blockTurn s := by
  rcases hscript with hs | ⟨rest, hs⟩
  · exact step_of_empty hs
  · simp [step, transitionOf, hs, pollTurn, hbusy]

/-- Settles O5. -/
theorem stepRunsTheCommandTheHostWrites : Obligations.StepRunsTheCommandTheHostWrites := by
  intro s c i rest hbusy hscript hdecode
  rw [step_of_command hscript]
  exact hostWriteCmd_of_ok hbusy hdecode

/-- Settles O6: the three scripts give the block its turn, and with it the command its step. -/
theorem stepRunsTheCommandInExecution : Obligations.StepRunsTheCommandInExecution := by
  intro s i rest hbusy hdecode
  refine ⟨fun hscript => ?_, fun hscript => ?_, fun hscript => ?_⟩
  · rw [step_of_block hscript]
    exact blockTurn_of_ok hbusy hdecode
  · rw [step_of_undisturbed hbusy (.inr ⟨rest, hscript⟩)]
    exact blockTurn_of_ok hbusy hdecode
  · rw [step_of_empty hscript]
    exact blockTurn_of_ok hbusy hdecode

/-- A 32-bit word is placed whole (30 R90). -/
theorem commandWord_toNat (c : Word) : commandWord 32 c.toNat = c := by
  rw [commandWord, Nat.mod_eq_of_lt c.isLt, BitVec.ofNat_toNat, BitVec.setWidth_eq]

/-- Settles O7: the placed word is the host's next write, or the block's own command with its turn first. -/
theorem placedWordIsTheNextCommandRun : Obligations.PlacedWordIsTheNextCommandRun := by
  intro s i hwf
  simp only [State.withFetchWord, commandWord_toNat]
  refine ⟨fun hbusy => ?_, fun hbusy => ?_⟩
  · have hplace : placeCommand (encode i) s = { s with script := .host (.writeReg 0 (encode i)) :: s.script } := by
      simp [placeCommand, hbusy, RegName.index]
    rw [hplace]
    exact stepRunsTheCommandTheHostWrites _ (encode i) i s.script hbusy rfl (decode_encode hwf)
  · have hplace : placeCommand (encode i) s = { s with cmd := encode i, script := .block :: s.script } := by
      simp [placeCommand, hbusy]
    rw [hplace]
    obtain ⟨hblock, -, -⟩ := stepRunsTheCommandInExecution
      { s with cmd := encode i, script := .block :: s.script } i s.script hbusy (decode_encode hwf)
    exact hblock rfl

/-- Settles O8. -/
theorem blockWithoutAStepWaits : Obligations.BlockWithoutAStepWaits := by
  intro s rest hbusy
  refine ⟨fun hscript => ?_, fun hscript => ?_⟩
  · rw [step_of_empty hscript]
    exact blockTurn_of_not_busy hbusy
  · rw [step_of_block hscript]
    exact blockTurn_of_not_busy hbusy

/-! ### Acceptance -/

/-- Settles O9: the error entry touches `STATE`, `PHASE` and `ERR` only. -/
theorem illegalWordRaisesIllegalCommand : Obligations.IllegalWordRaisesIllegalCommand := by
  intro s c e rest hbusy hscript hdecode
  refine ⟨({ s with cmd := c, script := rest } : State).raise .illegalCommand, ?_, rfl, rfl, rfl,
    State.raise_frame { s with cmd := c, script := rest } .illegalCommand⟩
  rw [step_of_command hscript]
  exact hostWriteCmd_of_error hbusy hdecode

/-- A legal command whose source holds an image starts (R253). -/
theorem exec_of_ready {s : State} {i : Instr} (hbusy : s.status.state ≠ .busy) (hwf : i.wf = true) (hclear : i ≠ .clear)
    (hready : s.sourceReady (sourceOf i) = true) : exec i s = .next (s.start (firstPhase (phasesOf i))) := by
  rw [exec_of_not_busy hbusy, if_neg hclear, if_pos hwf]
  simp [accept, hready]

/-- A start changes `STATE`, `PHASE` and `ERR` only (R253). -/
theorem State.start_frame (s : State) (p : Phase) :
    sameInputs s (s.start p) ∧ sameHeader s (s.start p) ∧ sameLengths s (s.start p) ∧ sameValid s (s.start p) ∧
      sameBytes noByte s (s.start p) ∧ sameConvFrom 0 s (s.start p) := by
  simp [sameInputs, sameHeader, sameLengths, sameValid, sameBytes, sameConvFrom]

/-- Settles O11: each listed command passes its source check, and its row of R255 begins with the listed phase. -/
theorem readyCommandStarts : Obligations.ReadyCommandStarts := by
  intro s i p hbusy hrow
  have ⟨hwf, hclear, hready, hfirst⟩ : i.wf = true ∧ i ≠ .clear ∧ s.sourceReady (sourceOf i) = true ∧
      firstPhase (phasesOf i) = p := by
    rcases hrow with ⟨rfl, rfl⟩ | ⟨f, rfl, rfl⟩ | ⟨rfl, rfl, hv⟩ | ⟨rfl, rfl, hv⟩ | ⟨rfl, rfl, hv⟩ |
      ⟨b, d, f, rfl, rfl, hv⟩ | ⟨b, k, rfl, rfl, hv⟩
    · exact ⟨rfl, nofun, rfl, rfl⟩
    · exact ⟨rfl, nofun, rfl, rfl⟩
    all_goals exact ⟨rfl, nofun, hv, rfl⟩
  exact ⟨s.start p, hfirst ▸ exec_of_ready hbusy hwf hclear hready, rfl, rfl, rfl, s.start_frame p⟩

/-- Settles O13. -/
theorem clearReleasesTheRun : Obligations.ClearReleasesTheRun := by
  intro s hbusy
  refine ⟨s.release, exec_of_not_busy hbusy .clear, rfl, rfl, rfl, ?_, ?_, ?_, ?_⟩
  · simp [runCleared]
  · simp [sameInputs]
  · simp [sameBytes]
  · simp [sameConvFrom]

end Sys2Proof.Machine
end

section
/-! PROOF. A command that runs undisturbed from phase to phase (spec/45_pipeline_control.md R255 to R257, R262). -/

namespace Sys2Proof.Machine

/-! ### Runs -/

theorem run_succ {s t : State} (h : step s = .next t) (n : Nat) :
    Host.Core.run core (n + 1) s = Host.Core.run core n t := by
  have hcore : core.step s = .next t := h
  simp only [Host.Core.run, hcore]

/-- A run of `m + n` steps is one of `m` steps and then one of `n`. -/
theorem run_add {m : Nat} (n : Nat) {s t : State} (h : Host.Core.run core m s = .next t) :
    Host.Core.run core (m + n) s = Host.Core.run core n t := by
  induction m generalizing s with
  | zero =>
    cases h
    rw [Nat.zero_add]
  | succ m ih =>
    rw [Nat.succ_add]
    simp only [Host.Core.run] at h ⊢
    split at h
    · exact ih h
    · cases h
    · cases h

/-! ### A command in execution -/

/-- The block executes the command `i`, the phases `ops` of it are still to come, and nothing disturbs it. -/
structure Underway (s : State) (i : Instr) (ops : List PhaseOp) : Prop where
  busy : s.status.state = .busy
  script : undisturbed s.script
  noErr : s.err = .none
  command : decode s.cmd = .ok i
  phases : phasesFrom (phasesOf i) s.status.phase = ops

/-- A command with phases to come executes the first of them (R256). -/
theorem blockPhase_of_phasesFrom {plan later : List PhaseOp} {op : PhaseOp} {s : State}
    (hphases : phasesFrom plan s.status.phase = op :: later) :
    (∃ u, runPhase op s = .completed u ∧ blockPhase plan s = .next (u.finish (firstPhase later))) ∨
      (∃ e u, runPhase op s = .failed e u ∧ blockPhase plan s = .next (u.raise e)) := by
  obtain ⟨-, hnext, -⟩ := phasesFrom_eq_cons hphases
  simp only [blockPhase, phaseNamed_eq_head?, hphases, List.head?_cons, hnext]
  cases hrun : runPhase op s with
  | completed u => exact .inl ⟨u, rfl, rfl⟩
  | failed e u => exact .inr ⟨e, u, rfl, rfl⟩

theorem Underway.step_cases {s : State} {i : Instr} {op : PhaseOp} {later : List PhaseOp}
    (h : Underway s i (op :: later)) :
    (∃ u, runPhase op s.tick = .completed u ∧ step s = .next (u.finish (firstPhase later))) ∨
      (∃ e u, runPhase op s.tick = .failed e u ∧ step s = .next (u.raise e)) := by
  rw [step_of_undisturbed h.busy h.script, blockTurn_of_ok h.busy h.command, exec_of_busy (s := s.tick) h.busy,
    if_pos (wf_of_decode h.command)]
  exact blockPhase_of_phasesFrom (s := s.tick) h.phases

theorem Underway.step_of_completed {s u : State} {i : Instr} {op : PhaseOp} {later : List PhaseOp}
    (h : Underway s i (op :: later)) (hrun : runPhase op s.tick = .completed u) :
    step s = .next (u.finish (firstPhase later)) := by
  rcases h.step_cases with ⟨u', hrun', hstep⟩ | ⟨e, u', hrun', -⟩
  · obtain rfl : u = u' := PhaseEnd.completed.inj (hrun.symm.trans hrun')
    exact hstep
  · cases hrun.symm.trans hrun'

theorem Underway.step_of_failed {s u : State} {i : Instr} {op : PhaseOp} {later : List PhaseOp} {e : ErrCode}
    (h : Underway s i (op :: later)) (hrun : runPhase op s.tick = .failed e u) : step s = .next (u.raise e) := by
  rcases h.step_cases with ⟨u', hrun', -⟩ | ⟨e', u', hrun', hstep⟩
  · cases hrun.symm.trans hrun'
  · cases hrun.symm.trans hrun'
    exact hstep

theorem runPhase_completed_script {op : PhaseOp} {s u : State} (h : runPhase op s = .completed u) :
    u.script = s.script := by
  rcases runPhase_completed h with ⟨-, img, -, rfl⟩ | ⟨-, rfl⟩ | ⟨src, -, rfl⟩ | ⟨src, dst, fmt, -, rfl⟩ |
    ⟨src, k, -, rfl⟩
  · simp
  · simp [phBlur]
  · simp [phSobel]
  · simp [phEncode]
  · simp [phConvolve]

/-- A completed phase that is not the last leaves the command at the next one (R257). -/
theorem Underway.completed {s u : State} {i : Instr} {op next : PhaseOp} {later : List PhaseOp}
    (h : Underway s i (op :: next :: later)) (hrun : runPhase op s.tick = .completed u) :
    Underway (u.finish next.phase) i (next :: later) := by
  obtain ⟨-, hcmd, hstate, herr⟩ := runPhase_completed_frame hrun
  exact
    { busy := by simp [next.phase_ne_none, hstate, h.busy]
      script := by simpa [runPhase_completed_script hrun] using h.script
      noErr := by simp [herr, h.noErr]
      command := by simp [hcmd, h.command]
      phases := by rw [State.finish_phase]; exact phasesFrom_next (phasesOf_nodup i) h.phases }

/-- A command ends after at most one step for each phase to come (R262). -/
theorem Underway.ends {s : State} {i : Instr} {op : PhaseOp} {later : List PhaseOp} (h : Underway s i (op :: later)) :
    ∃ n t, n ≤ later.length + 1 ∧ Host.Core.run core n s = .next t ∧
      (t.status.state = .done ∨ t.status.state = .error) ∧ t.status.phase = .none := by
  induction later generalizing s op with
  | nil =>
    rcases h.step_cases with ⟨u, -, hstep⟩ | ⟨e, u, -, hstep⟩
    · exact ⟨1, _, le_rfl, run_succ hstep 0, .inl (by simp [firstPhase]), by simp [firstPhase]⟩
    · exact ⟨1, _, le_rfl, run_succ hstep 0, .inr rfl, rfl⟩
  | cons next later ih =>
    rcases h.step_cases with ⟨u, hrun, hstep⟩ | ⟨e, u, -, hstep⟩
    · obtain ⟨n, t, hn, ht, hend⟩ := ih (h.completed hrun)
      exact ⟨n + 1, t, Nat.succ_le_succ hn, (run_succ hstep n).trans ht, hend⟩
    · exact ⟨1, _, by simp, run_succ hstep 0, .inr rfl, rfl⟩

theorem phasesOf_length_le (i : Instr) : (phasesOf i).length ≤ 5 := by
  cases i <;> simp [phasesOf]

/-- Settles O55: a good `BUSY` block is underway with phases of its command to come, and no command has more than
five. -/
theorem everyCommandEnds : Obligations.EveryCommandEnds := by
  intro s h hbusy hscript
  obtain ⟨i, hdecode, hphases, -⟩ := h.busy hbusy
  obtain ⟨op, later, hphases⟩ := List.exists_cons_of_ne_nil hphases
  have hnoErr : s.err = .none := by
    by_contra hne
    simp [h.err.1 hne] at hbusy
  have hunderway : Underway s i (op :: later) := ⟨hbusy, .inl hscript, hnoErr, hdecode, hphases⟩
  obtain ⟨n, t, hn, hend⟩ := hunderway.ends
  obtain ⟨-, -, hsuffix⟩ := phasesFrom_eq_cons hphases
  exact ⟨n, t, hn.trans (hsuffix.length_le.trans (phasesOf_length_le i)), hend⟩

end Sys2Proof.Machine
end

section
/-! PROOF. What a phase reads (spec/20_memory.md R60, R62): the parameters, the header and the samples of its source, so
that two blocks which agree on these produce the same image or stream. -/

namespace Sys2Proof.Machine

/-! ### Images that agree on their samples -/

section
variable {img img' : Nat → Byte} {w h : Nat}

theorem pix_congr (himg : ∀ k, k < w * h → img k = img' k) : pix img w h = pix img' w h := by
  funext r c
  unfold pix
  split
  · next hin =>
    obtain ⟨hr, hrh, hc, hcw⟩ := hin
    have hindex : r.toNat * w + c.toNat < w * h := index_lt_sampleCount (by omega) (by omega)
    rw [himg _ hindex]
  · rfl

theorem conv_congr (himg : ∀ k, k < w * h → img k = img' k) : conv img w h = conv img' w h := by
  funext k row col
  simp only [conv, acc, tap, pix_congr himg]

theorem blurImage_congr (himg : ∀ k, k < w * h → img k = img' k) : blurImage img w h = blurImage img' w h := by
  simp only [blurImage, conv_congr himg]

theorem convImage_congr (himg : ∀ k, k < w * h → img k = img' k) (k : KIdx) :
    convImage img w h k = convImage img' w h k := by
  simp only [convImage, conv_congr himg]

theorem sobelImage_congr (himg : ∀ k, k < w * h → img k = img' k) : sobelImage img w h = sobelImage img' w h := by
  simp only [sobelImage, gradient, gradientSquare, conv_congr himg]

theorem streamBody_congr (himg : ∀ k, k < w * h → img k = img' k) (fmt : Fmt) :
    streamBody fmt img w h = streamBody fmt img' w h := by
  have hsample : ∀ k ∈ List.range (w * h), img k = img' k := fun k hk => himg k (List.mem_range.1 hk)
  cases fmt with
  | bin =>
    simp only [streamBody_bin]
    exact List.map_congr_left hsample
  | text =>
    simp only [streamBody_text]
    exact List.flatMap_congr fun k hk => by rw [sampleText, sampleText, hsample k hk]

theorem encodeStream_congr (himg : ∀ k, k < w * h → img k = img' k) (p : Params) (fmt : Fmt) (m : Nat) :
    encodeStream p fmt img w h m = encodeStream p fmt img' w h m := by
  simp only [encodeStream, streamBody_congr himg]

end

/-! ### The results of a run -/

/-- The results a run leaves: the parameters, the valid bits, the other result registers, `IN_LEN` and the buffers.
`CMD`, `STATE`, `PHASE`, `ERR` and the model's other fields are set to fixed values. -/
def State.results (s : State) : State :=
  { s.settled with cmd := 0, script := [], readData := .empty, draws := 0 }

theorem results_finish (s : State) (p : Phase) : (s.finish p).results = s.results := by
  unfold State.finish
  split <;> rfl

/-- The image buffer `b` was completely written. -/
def holdsImage (s : State) (b : Src) : Prop := Cells.full s.sampleCount (s.mem.bytes (srcSpace b))

/-- A completely written image reads the same whatever the free values are. -/
theorem image_results {s : State} {b : Src} (h : holdsImage s b) {k : Nat} (hk : k < s.width.toNat * s.height.toNat) :
    s.image b k = s.results.image b k := by
  obtain ⟨v, hv⟩ := Option.isSome_iff_exists.1 (h k hk)
  have hread : ∀ t : State, t.mem = s.mem → t.image b k = v := fun t ht => by
    simp only [State.image, State.byteAt, ht, hv, Option.getD_some]
  exact (hread s rfl).trans (hread s.results rfl).symm

/-- What a phase makes of the results of a run. -/
def PhaseOp.effect (op : PhaseOp) (r : State) : State :=
  match runPhase op r with
  | .completed u => u.results
  | .failed _ u => u.results

/-- A phase other than `PH_DECODE` completes (60 R287), and its results depend on the results before it only. -/
theorem runPhase_results {op : PhaseOp} {s : State} (hop : op ≠ .decode) (h : ∀ b, op.reads = some b → holdsImage s b) :
    ∃ u, runPhase op s = .completed u ∧ u.results = op.effect s.results := by
  cases op with
  | decode => exact absurd rfl hop
  | blur =>
    refine ⟨_, rfl, ?_⟩
    rw [phBlur, blurImage_congr fun k hk => image_results (h _ rfl) hk]
    rfl
  | sobel src =>
    refine ⟨_, rfl, ?_⟩
    rw [phSobel, sobelImage_congr fun k hk => image_results (h _ rfl) hk]
    rfl
  | convolve src k =>
    refine ⟨_, rfl, ?_⟩
    rw [phConvolve, convImage_congr fun k hk => image_results (h _ rfl) hk]
    rfl
  | encode src dst fmt | encode2 src dst fmt =>
    refine ⟨_, rfl, ?_⟩
    rw [phEncode, State.encoded, encodeStream_congr fun k hk => image_results (h _ rfl) hk]
    cases dst <;> rfl

/-! ### Phases that find their sources -/

/-- None of the phases decodes, every valid image buffer was completely written, and every phase finds its source valid
(R26, 45 R252). -/
structure Supplied (s : State) (ops : List PhaseOp) : Prop where
  stages : PhaseOp.decode ∉ ops
  written : ∀ b, s.sourceValid b = true → holdsImage s b
  sources : supplied s.sourceValid ops = true

/-- A store of an image's size writes its buffer completely and leaves the others (20 R67). -/
theorem holdsImage_storeBytes {s : State} {sp : ByteSpace} {vs : List Byte} {b : Src} (hlen : vs.length = s.sampleCount)
    (h : srcSpace b = sp ∨ holdsImage s b) : holdsImage (s.storeBytes sp vs) b := by
  unfold holdsImage
  rw [State.storeBytes_mem, Memory.bytes_setBytes]
  split
  · exact Cells.full_overlay hlen _
  · next hsp => exact h.resolve_left hsp

theorem srcSpace_ne_dstSpace (b : Src) (dst : Dst) : srcSpace b ≠ dstSpace dst := by
  cases b <;> cases dst <;> decide

/-- An encode writes no image buffer (41 R177). -/
theorem holdsImage_phEncode {s : State} {src b : Src} {dst : Dst} {fmt : Fmt} (h : holdsImage s b) :
    holdsImage (phEncode src dst fmt s) b := by
  simpa [holdsImage, State.sampleCount, phEncode, srcSpace_ne_dstSpace] using h

/-- A stage leaves every image buffer completely written that is valid after it. -/
theorem holdsImage_of_completed {op : PhaseOp} {s u : State} (hop : op ≠ .decode)
    (hwritten : ∀ b, s.sourceValid b = true → holdsImage s b) (hrun : runPhase op s = .completed u) (b : Src)
    (hb : u.sourceValid b = true) : holdsImage u b := by
  rw [sourceValid_of_completed hrun] at hb
  rcases runPhase_completed hrun with ⟨rfl, -⟩ | ⟨rfl, rfl⟩ | ⟨src, rfl, rfl⟩ |
    ⟨src, dst, fmt, rfl | rfl, rfl⟩ | ⟨src, k, rfl, rfl⟩
  · exact absurd rfl hop
  · have hcases : s.sourceValid b = true ∨ b = .filt := by simpa [PhaseOp.leaves] using hb
    exact holdsImage_storeBytes (blurImage_length _ _ _) (hcases.symm.imp (congrArg srcSpace) (hwritten b))
  · have hcases : s.sourceValid b = true ∨ b = .grad := by simpa [PhaseOp.leaves] using hb
    exact holdsImage_storeBytes (sobelImage_length _ _ _) (hcases.symm.imp (congrArg srcSpace) (hwritten b))
  · exact holdsImage_phEncode (hwritten b hb)
  · exact holdsImage_phEncode (hwritten b hb)
  · simpa [holdsImage, State.sampleCount, phConvolve] using hwritten b hb

/-- Whether phases find their sources depends on the results only. -/
theorem Supplied.of_results {s t : State} {ops : List PhaseOp} (h : Supplied s ops) (hst : t.results = s.results) :
    Supplied t ops := by
  have hresults : Supplied s.results ops := ⟨h.stages, h.written, h.sources⟩
  rw [← hst] at hresults
  exact ⟨hresults.stages, hresults.written, hresults.sources⟩

/-- The first phase completes, its results depend on the results before it only, and the others find their sources after
it. -/
theorem Supplied.completed {s : State} {op : PhaseOp} {later : List PhaseOp} (h : Supplied s (op :: later)) :
    ∃ u, runPhase op s = .completed u ∧ u.results = op.effect s.results ∧ Supplied u later := by
  obtain ⟨hop, hlater⟩ : op ≠ .decode ∧ .decode ∉ later := by
    simpa [eq_comm] using h.stages
  obtain ⟨hreads, hsources⟩ := supplied_cons h.sources
  obtain ⟨u, hrun, heffect⟩ := runPhase_results hop fun b hb => h.written b (hreads b hb)
  refine ⟨u, hrun, heffect, hlater, holdsImage_of_completed hop h.written hrun, ?_⟩
  rw [sourceValid_of_completed hrun]
  exact hsources

/-- A decoded image is completely written, so that every phase after a decode finds what it needs of it (R149). -/
theorem written_commitImage {s : State} {img : DecodedImage} (hp : paramsWf s.params) (hfits : img.Fits s.params)
    (b : Src) (hb : (s.clearRun.commitImage img).sourceValid b = true) :
    holdsImage (s.clearRun.commitImage img) b := by
  obtain ⟨hwidth, hheight, -⟩ := hfits.toNat_header hp
  have hcount : (s.clearRun.commitImage img).sampleCount = img.width * img.height := by
    simp [State.sampleCount, hwidth, hheight]
  cases b with
  | frame1 =>
    rw [holdsImage, hcount]
    simpa [srcSpace] using Cells.full_ofList hfits.count.ge
  | filt | grad => simp [State.sourceValid] at hb

end Sys2Proof.Machine
end

section
/-! PROOF. `PROCESS` (spec/45_pipeline_control.md R258 to R261): one command with five phases leaves the results of five
commands with one phase each. -/

namespace Sys2Proof.Machine

/-! ### From the host's write to the end of the command -/

/-- The results after these phases, the first of them first. -/
def effects (ops : List PhaseOp) (r : State) : State := ops.foldl (fun r op => op.effect r) r

/-- A command whose phase completes and whose later phases find their sources ends in `DONE`, one step for each
phase. -/
theorem Underway.runs {s u : State} {i : Instr} {op : PhaseOp} {later : List PhaseOp} (h : Underway s i (op :: later))
    (hrun : runPhase op s.tick = .completed u) (hsupplied : Supplied u later) :
    ∃ t, Host.Core.run core (later.length + 1) s = .next t ∧ goesOn t .none ∧ t.script = s.script ∧
      t.results = effects later u.results := by
  have hstep := h.step_of_completed hrun
  induction later generalizing s op u with
  | nil =>
    obtain ⟨-, -, -, herr⟩ := runPhase_completed_frame hrun
    refine ⟨u.finish .none, run_succ hstep 0, ?_, ?_, results_finish u .none⟩
    · simp [goesOn, herr, h.noErr]
    · simp [runPhase_completed_script hrun]
  | cons next later ih =>
    have hnext := h.completed hrun
    have hresults : (u.finish next.phase).tick.results = u.results := results_finish u next.phase
    obtain ⟨v, hrun', heffect, hsupplied'⟩ := (hsupplied.of_results hresults).completed
    obtain ⟨t, ht, hdone, hscript, heffects⟩ := ih hnext hrun' hsupplied' (hnext.step_of_completed hrun')
    refine ⟨t, (run_succ hstep _).trans ht, hdone, ?_, ?_⟩
    · simpa [runPhase_completed_script hrun] using hscript
    · rw [heffects, heffect, hresults]
      rfl

/-- The state after the host's write of `i` started it (R253). -/
def State.accepted (s : State) (i : Instr) (rest : List Turn) : State :=
  ({ s with cmd := encode i, script := rest } : State).start (firstPhase (phasesOf i))

/-- The host's write of a command whose source is valid starts it, and the script goes on undisturbed. -/
theorem step_accepted {s : State} {i : Instr} {op : PhaseOp} {later : List PhaseOp} {rest : List Turn}
    (hbusy : s.status.state ≠ .busy) (hscript : s.script = cmdTurns i ++ rest) (hrest : undisturbed rest)
    (hwf : i.wf = true) (hphases : phasesOf i = op :: later) (hready : s.sourceReady (sourceOf i) = true) :
    step s = .next (s.accepted i rest) ∧ Underway (s.accepted i rest) i (op :: later) := by
  have hclear : i ≠ .clear := by
    rintro rfl
    cases hphases
  have hstart : exec i { s with cmd := encode i, script := rest } = .next (s.accepted i rest) :=
    exec_of_ready hbusy hwf hclear hready
  refine ⟨?_, rfl, hrest, rfl, decode_encode hwf, ?_⟩
  · rw [stepRunsTheCommandTheHostWrites s (encode i) i rest hbusy hscript (decode_encode hwf), hstart]
  · rw [State.accepted, State.start_phase, phasesFrom_firstPhase, hphases]

theorem runPhase_decode_of_ok {s : State} {img : DecodedImage} (himg : decodeStream s.params s.stream = .ok img) :
    runPhase .decode s = .completed (s.clearRun.commitImage img) := by
  simp [runPhase, phDecode, himg]

theorem runPhase_decode_of_error {s : State} {e : ErrCode} (herr : decodeStream s.params s.stream = .error e) :
    runPhase .decode s = .failed e (s.clearRun.replaceBytes .frame1 []) := by
  simp [runPhase, phDecode, herr]

theorem goesOn.not_busy {t : State} (h : goesOn t .none) : t.status.state ≠ .busy := by
  obtain ⟨-, hstate, -⟩ := h
  simp [hstate]

/-- The poll after a command has ended reads `STATUS` (log entry 23). -/
def State.polled (s : State) (rest : List Turn) : State :=
  { s with script := rest, draws := s.draws + 1, readData := .word s.status.word }

theorem step_of_poll {s : State} {rest : List Turn} (hbusy : s.status.state ≠ .busy)
    (hscript : s.script = .poll :: rest) : step s = .next (s.polled rest) := by
  have hstep : step s = hostReadReg 1 { s with script := rest } := by
    simp [step, transitionOf, hscript, pollTurn, hbusy, RegName.index]
  have hread : hostRegValue ({ s with script := rest } : State).tick .status = s.status.word := by
    rw [hostRegValue, RegName.isResult, Bool.and_false, if_neg Bool.false_ne_true]
    rfl
  rw [hstep, State.polled, ← hread]
  rfl

/-- The host polled at the end of a command, which left the results `r` and `rest` of the script. -/
structure EndsWith (t : State) (rest : List Turn) (r : State) : Prop where
  done : goesOn t .none
  script : t.script = rest
  readData : t.readData = .word t.status.word
  results : t.results = r

/-- Of a state at the end of a command, its results give everything but `CMD` and the draw counter. -/
theorem EndsWith.eq {t r : State} {rest : List Turn} (h : EndsWith t rest r) :
    t = { r with cmd := t.cmd, script := rest, readData := .word r.status.word, draws := t.draws } := by
  obtain ⟨⟨hphase, hstate, herr⟩, hscript, hread, rfl⟩ := h
  have hstatus : t.results.status = t.status := by
    rw [if_pos rfl] at hstate
    simp [State.results, State.settled, ← hstate, ← hphase]
  rw [hstatus, ← hread, ← hscript]
  simp only [State.results, State.settled, ← herr]

theorem EndsWith.unique {a b r : State} {rest : List Turn} (ha : EndsWith a rest r) (hb : EndsWith b rest r) :
    b = { a with cmd := b.cmd, draws := b.draws } := by
  rw [ha.eq]
  exact hb.eq

/-! ### Commands with a wait -/

/-- A command with a wait, whose first phase completes and whose later phases find their sources, ends in `DONE` with
the results of its phases: one step for the write, one for each phase, one for the poll that finds the block not
`BUSY`. -/
theorem run_submit {s u : State} {i : Instr} {op : PhaseOp} {later : List PhaseOp} {rest : List Turn}
    (hbusy : s.status.state ≠ .busy) (hscript : s.script = submitTurns i ++ rest) (hwf : i.wf = true)
    (hphases : phasesOf i = op :: later) (hready : s.sourceReady (sourceOf i) = true)
    (hrun : runPhase op (s.accepted i (.poll :: rest)).tick = .completed u) (hsupplied : Supplied u later) :
    ∃ t, Host.Core.run core (later.length + 3) s = .next t ∧ EndsWith t rest (effects later u.results) := by
  obtain ⟨hstep, hunderway⟩ := step_accepted hbusy hscript (.inr ⟨rest, rfl⟩) hwf hphases hready
  obtain ⟨t, ht, hdone, hpoll, hresults⟩ := hunderway.runs hrun hsupplied
  have hend : t.status.state ≠ .busy := hdone.not_busy
  refine ⟨t.polled rest, ?_, hdone, rfl, rfl, hresults⟩
  rw [run_succ hstep, run_add 1 ht, run_succ (step_of_poll hend hpoll)]
  rfl

/-- A command of one phase needs the source that the phase reads (R252, R255). -/
theorem sourceOf_eq_reads {i : Instr} {op : PhaseOp} (h : phasesOf i = [op]) : sourceOf i = op.reads := by
  cases i <;> cases h <;> rfl

/-- A command of one stage, with a wait, has the effect of the stage. -/
theorem run_submit_stage {s : State} {i : Instr} {op : PhaseOp} {rest : List Turn} {later : List PhaseOp}
    (hbusy : s.status.state ≠ .busy) (hscript : s.script = submitTurns i ++ rest) (hwf : i.wf = true)
    (hphases : phasesOf i = [op]) (hsupplied : Supplied s (op :: later)) :
    ∃ t, Host.Core.run core 3 s = .next t ∧ EndsWith t rest (op.effect s.results) ∧ Supplied t later := by
  obtain ⟨hreads, -⟩ := supplied_cons hsupplied.sources
  have hready : s.sourceReady (sourceOf i) = true := by
    rw [sourceOf_eq_reads hphases]
    exact (sourceReady_eq_true_iff s _).2 hreads
  have hstarted : Supplied (s.accepted i (.poll :: rest)).tick (op :: later) := hsupplied.of_results rfl
  obtain ⟨u, hrun, heffect, hlater⟩ := hstarted.completed
  obtain ⟨t, ht, hend⟩ := run_submit hbusy hscript hwf hphases hready hrun ⟨nofun, hlater.written, rfl⟩
  exact ⟨t, ht, { hend with results := hend.results.trans heffect }, hlater.of_results hend.results⟩

/-- Commands of one stage each, with a wait after each, have the effects of the stages in order. -/
theorem run_submit_stages {s r : State} {commands : List Instr} {ops : List PhaseOp}
    (hcommands : List.Forall₂ (fun i op => i.wf = true ∧ phasesOf i = [op]) commands ops)
    (hs : EndsWith s (commands.flatMap submitTurns) r) (hsupplied : Supplied s ops) :
    ∃ t, Host.Core.run core (3 * commands.length) s = .next t ∧ EndsWith t [] (effects ops r) := by
  induction hcommands generalizing s r with
  | nil => exact ⟨s, rfl, hs⟩
  | @cons i op commands ops hi _ ih =>
    obtain ⟨hwf, hphases⟩ := hi
    obtain ⟨u, hu, hend, hlater⟩ := run_submit_stage hs.done.not_busy hs.script hwf hphases hsupplied
    obtain ⟨t, ht, hend'⟩ := ih hend hlater
    refine ⟨t, ?_, hs.results ▸ hend'⟩
    rw [List.length_cons, Nat.mul_succ, Nat.add_comm, run_add _ hu, ht]

/-! ### Commands that decode -/

/-- `DECODE` and `PROCESS` begin with the decode and need no source (R252, R255). -/
theorem wf_ready_of_decode_first {i : Instr} {later : List PhaseOp} (h : phasesOf i = .decode :: later) (s : State) :
    i.wf = true ∧ s.sourceReady (sourceOf i) = true := by
  cases i with
  | decode | process => exact ⟨rfl, rfl⟩
  | _ => cases h

/-- On a stream that decodes to `img`, the phases after the decode work on the committed image (40 R149). -/
theorem run_submit_decode {s : State} {img : DecodedImage} {i : Instr} {later : List PhaseOp} {rest : List Turn}
    (hbusy : s.status.state ≠ .busy) (hscript : s.script = submitTurns i ++ rest)
    (hphases : phasesOf i = .decode :: later)
    (himg : decodeStream s.params s.tick.stream = .ok img) (hsupplied : Supplied (s.clearRun.commitImage img) later) :
    ∃ t, Host.Core.run core (later.length + 3) s = .next t ∧
      EndsWith t rest (effects later (s.clearRun.commitImage img).results) := by
  obtain ⟨hwf, hready⟩ := wf_ready_of_decode_first hphases s
  have hrun := runPhase_decode_of_ok (s := (s.accepted i (.poll :: rest)).tick) himg
  have hlater : Supplied ((s.accepted i (.poll :: rest)).tick.clearRun.commitImage img) later :=
    hsupplied.of_results rfl
  have hcommit : ((s.accepted i (.poll :: rest)).tick.clearRun.commitImage img).results =
      (s.clearRun.commitImage img).results := rfl
  rw [← hcommit]
  exact run_submit hbusy hscript hwf hphases hready hrun hlater

/-- On a stream that does not decode, the command ends in `ERROR` with the stream's error at its first phase (R256, 40
R150). -/
theorem run_submit_decode_error {s : State} {e : ErrCode} {i : Instr} {later : List PhaseOp} {rest : List Turn}
    (hbusy : s.status.state ≠ .busy) (hscript : s.script = submitTurns i ++ rest)
    (hphases : phasesOf i = .decode :: later)
    (herr : decodeStream s.params s.tick.stream = .error e) :
    Host.Core.run core 3 s = .next
      ((({ s.clearRun.replaceBytes .frame1 [] with cmd := encode i, draws := s.draws + 1 } : State).raise e).polled
        rest) := by
  obtain ⟨hwf, hready⟩ := wf_ready_of_decode_first hphases s
  obtain ⟨hstep, hunderway⟩ := step_accepted hbusy hscript (.inr ⟨rest, rfl⟩) hwf hphases hready
  have hrun := runPhase_decode_of_error (s := (s.accepted i (.poll :: rest)).tick) herr
  rw [run_succ hstep, run_succ (hunderway.step_of_failed hrun), run_succ (step_of_poll (rest := rest) (by simp) rfl)]
  rfl

/-! ### The obligations -/

/-- The stages of `PROCESS` after its decode (R259); `last` is its second encode, as a phase of `PROCESS` or of the
command `ENCODE`. -/
def stagesWith (fmt : Fmt) (last : PhaseOp) : List PhaseOp :=
  [.blur, .sobel .filt, .encode .filt .out0 fmt, last]

/-- The commands that follow `DECODE` in R261. -/
def stageCommands (fmt : Fmt) : List Instr :=
  [.blur, .sobel .filt, .encode .filt .out0 fmt, .encode .grad .out1 fmt]

theorem fiveCommands_eq (fmt : Fmt) :
    fiveCommands fmt = submitTurns .decode ++ (stageCommands fmt).flatMap submitTurns :=
  rfl

/-- `PH_ENCODE2` does what `PH_ENCODE` does (R259). -/
theorem effects_encode2 (fmt : Fmt) (r : State) :
    effects (stagesWith fmt (.encode2 .grad .out1 fmt)) r = effects (stagesWith fmt (.encode .grad .out1 fmt)) r :=
  rfl

/-- No stage changes the header (R67). -/
theorem sameHeader_effect {op : PhaseOp} (hop : op ≠ .decode) (r : State) : sameHeader r (op.effect r) := by
  cases op with
  | decode => exact absurd rfl hop
  | blur | sobel | convolve => exact ⟨rfl, rfl, rfl, rfl⟩
  | encode src dst fmt | encode2 src dst fmt =>
    obtain ⟨-, -, -, hheader⟩ := phEncode_frame src dst fmt r
    exact hheader

theorem sameHeader_effects {ops : List PhaseOp} (hops : .decode ∉ ops) (r : State) : sameHeader r (effects ops r) := by
  induction ops generalizing r with
  | nil => exact ⟨rfl, rfl, rfl, rfl⟩
  | cons op ops ih =>
    obtain ⟨hop, hops⟩ : op ≠ .decode ∧ .decode ∉ ops := by simpa [eq_comm] using hops
    obtain ⟨hw, hh, hm, hv⟩ := sameHeader_effect hop r
    obtain ⟨hw', hh', hm', hv'⟩ := ih hops (op.effect r)
    exact ⟨hw'.trans hw, hh'.trans hh, hm'.trans hm, hv'.trans hv⟩

/-! The valid bit that each stage of `PROCESS` sets (R26). -/

theorem effect_blur_status (r : State) : (PhaseOp.blur.effect r).status = { r.results.status with vFilt := true } :=
  rfl

theorem effect_sobel_status (src : Src) (r : State) :
    ((PhaseOp.sobel src).effect r).status = { r.results.status with vGrad := true } :=
  rfl

theorem effect_encode_out0_status (src : Src) (fmt : Fmt) (r : State) :
    ((PhaseOp.encode src .out0 fmt).effect r).status = { r.results.status with vOut0 := true } :=
  rfl

theorem effect_encode2_out1_status (src : Src) (fmt : Fmt) (r : State) :
    ((PhaseOp.encode2 src .out1 fmt).effect r).status = { r.results.status with vOut1 := true } :=
  rfl

theorem results_status (s : State) : s.results.status = { s.status with state := .done, phase := .none } := rfl

/-- The stages of `PROCESS` set the valid bits of their four destinations and leave the others (R259). -/
theorem effects_process_status (fmt : Fmt) (r : State) :
    (effects (stagesWith fmt (.encode2 .grad .out1 fmt)) r).status =
      { r.results.status with vFilt := true, vGrad := true, vOut0 := true, vOut1 := true } := by
  simp only [effects, stagesWith, List.foldl_cons, List.foldl_nil, results_status, effect_blur_status,
    effect_sobel_status, effect_encode_out0_status, effect_encode2_out1_status]

/-- After the decode every stage of `PROCESS` finds its source (R259). -/
theorem supplied_stagesWith {s : State} {img : DecodedImage} (hp : paramsWf s.params) (hfits : img.Fits s.params)
    {fmt : Fmt} {last : PhaseOp} (hlast : last = .encode2 .grad .out1 fmt ∨ last = .encode .grad .out1 fmt) :
    Supplied (s.clearRun.commitImage img) (stagesWith fmt last) where
  stages := by rcases hlast with rfl | rfl <;> simp [stagesWith]
  written := written_commitImage hp hfits
  sources := by rcases hlast with rfl | rfl <;> rfl

/-- `PROCESS` with a wait, on a stream that decodes. -/
theorem run_process {s : State} {img : DecodedImage} {fmt : Fmt} (hp : paramsWf s.params)
    (hbusy : s.status.state ≠ .busy) (hscript : s.script = submitTurns (.process fmt))
    (himg : decodeStream s.params s.tick.stream = .ok img) :
    ∃ t, Host.Core.run core 7 s = .next t ∧
      EndsWith t [] (effects (stagesWith fmt (.encode2 .grad .out1 fmt)) (s.clearRun.commitImage img).results) :=
  run_submit_decode hbusy hscript rfl himg (supplied_stagesWith hp (decodeStream_fits himg) (.inl rfl))

/-- `DECODE`, `BLUR`, `SOBEL FILT` and the two `ENCODE`s, each with a wait, on a stream that decodes. -/
theorem run_fiveCommands {s : State} {img : DecodedImage} {fmt : Fmt} (hp : paramsWf s.params)
    (hbusy : s.status.state ≠ .busy) (hscript : s.script = fiveCommands fmt)
    (himg : decodeStream s.params s.tick.stream = .ok img) :
    ∃ t, Host.Core.run core 15 s = .next t ∧
      EndsWith t [] (effects (stagesWith fmt (.encode .grad .out1 fmt)) (s.clearRun.commitImage img).results) := by
  have hfits := decodeStream_fits himg
  obtain ⟨d, hd, hdecoded⟩ := run_submit_decode (later := []) hbusy (hscript.trans (fiveCommands_eq fmt)) rfl himg
    ⟨nofun, written_commitImage hp hfits, rfl⟩
  have hsupplied := (supplied_stagesWith (fmt := fmt) hp hfits (.inr rfl)).of_results hdecoded.results
  have hcommands : List.Forall₂ (fun i op => i.wf = true ∧ phasesOf i = [op]) (stageCommands fmt)
      (stagesWith fmt (.encode .grad .out1 fmt)) := by
    simp [stageCommands, stagesWith, Instr.wf, phasesOf]
  obtain ⟨t, ht, hend⟩ := run_submit_stages hcommands hdecoded hsupplied
  exact ⟨t, (run_add 12 hd).trans ht, hend⟩

/-- Settles O40: on a graymap stream both runs have the effects of the same stages on the same committed image, and on
any other stream both end at the decode. -/
theorem processEqualsTheFiveCommands : Obligations.ProcessEqualsTheFiveCommands := by
  intro s fmt hp hbusy _
  have ⟨_, _, _, _, _, hmagic⟩ := hp
  refine ⟨fun ⟨img, hstream⟩ => ?_, fun hother => ?_⟩
  · have himg := decodeStream_of_graymapStream hmagic hstream
    obtain ⟨a, ha, haend⟩ := run_process (s := { s with script := submitTurns (.process fmt) }) hp hbusy rfl himg
    obtain ⟨b, hb, hbend⟩ := run_fiveCommands (s := { s with script := fiveCommands fmt }) hp hbusy rfl himg
    obtain ⟨-, hdone, -⟩ := haend.done
    rw [effects_encode2] at haend
    exact ⟨a, b, ha, hb, hdone, haend.unique hbend⟩
  · cases hdecode : decodeStream s.params s.tick.stream with
    | ok img => exact absurd (graymapStream_of_decodeStream hdecode) (hother img)
    | error e =>
      have ha := run_submit_decode_error (s := { s with script := submitTurns (.process fmt) }) (rest := []) hbusy
        rfl rfl hdecode
      have hb := run_submit_decode_error (s := { s with script := submitTurns .decode }) (rest := []) hbusy
        rfl rfl hdecode
      exact ⟨_, _, ha, hb, rfl, rfl⟩

/-- Settles O41: the results are those of the five phases on the committed image. -/
theorem processRunsToDone : Obligations.ProcessRunsToDone := by
  intro s fmt img hp hbusy hscript hstream
  have ⟨_, _, _, _, _, hmagic⟩ := hp
  have himg := decodeStream_of_graymapStream hmagic hstream
  have hfits := decodeStream_fits himg
  obtain ⟨hstep, hunderway⟩ := step_accepted (rest := []) hbusy hscript (.inl rfl) rfl rfl rfl
  have hrun := runPhase_decode_of_ok (s := (s.accepted (.process fmt) []).tick) himg
  have hsupplied := supplied_stagesWith (s := (s.accepted (.process fmt) []).tick) (fmt := fmt) hp hfits (.inl rfl)
  obtain ⟨t, ht, hdone, -, hresults⟩ := hunderway.runs hrun hsupplied
  have hstatus : t.results.status = _ := (congrArg State.status hresults).trans (effects_process_status fmt _)
  obtain ⟨hw, hh, hm, hv⟩ := hresults ▸ sameHeader_effects hsupplied.stages _
  obtain ⟨hwidth, hheight, hmaxval⟩ := hfits.toNat_header hp
  exact ⟨t, (run_succ hstep 5).trans ht, hdone, congrArg Status.vFrame1 hstatus, congrArg Status.vFilt hstatus,
    congrArg Status.vGrad hstatus, congrArg Status.vConv hstatus, congrArg Status.vOut0 hstatus,
    congrArg Status.vOut1 hstatus, (congrArg BitVec.toNat hw).trans hwidth, (congrArg BitVec.toNat hh).trans hheight,
    (congrArg BitVec.toNat hm).trans hmaxval, hv⟩

end Sys2Proof.Machine
end

section
/-! PROOF. Two causes of an error (spec/60_exceptions.md): a dimension that is not positive (R282), and a command whose
source buffer holds no image (R286). -/

namespace Sys2Proof.Machine

/-! ### InvalidDimensionError -/

/-- The dimensions are checked before `max_value` and the size (R140, R152). -/
theorem checkHeader_of_dimension {p : Params} {h : Header} (hdim : h.width ≤ 0 ∨ h.height ≤ 0) :
    checkHeader p h = .error .invalidDimension := if_pos hdim

/-- Settles O19: the header is read as it is, and the first of its checks fails. -/
theorem nonPositiveDimensionRaisesInvalidDimension : Obligations.NonPositiveDimensionRaisesInvalidDimension := by
  intro s i q fmt w h m area hi hp hs hheader hdim
  have ⟨_, _, _, _, _, hmagic⟩ := hp
  exact exec_decode_of_error hi hs
    (decodeStream_of_check_error (readHeader_of_headedStream hmagic hheader) (checkHeader_of_dimension hdim))

/-! ### SourceInvalidError -/

/-- A legal command whose source holds no image takes the error entry (R252). -/
theorem exec_of_source_invalid {s : State} {i : Instr} {b : Src} (hbusy : s.status.state ≠ .busy) (hwf : i.wf = true)
    (hsource : sourceOf i = some b) (hinvalid : s.sourceValid b = false) :
    exec i s = .next (s.raise .sourceInvalid) := by
  have hclear : i ≠ .clear := by
    rintro rfl
    cases hsource
  have hready : s.sourceReady (sourceOf i) = false := (sourceReady_eq_false_iff s _).2 ⟨b, hsource, hinvalid⟩
  rw [exec_of_not_busy hbusy, if_neg hclear, if_pos hwf]
  simp [accept, hready]

/-- Settles O10: each listed command is legal and reads the named buffer; the error entry touches `STATE`, `PHASE` and
`ERR` only. -/
theorem invalidSourceRaisesSourceInvalid : Obligations.InvalidSourceRaisesSourceInvalid := by
  intro s i b hbusy hrow hvalid
  have ⟨hwf, hsource⟩ : i.wf = true ∧ sourceOf i = some b := by
    rcases hrow with ⟨rfl, rfl⟩ | ⟨rfl, hgrad⟩ | ⟨d, f, rfl⟩ | ⟨k, rfl⟩
    · exact ⟨rfl, rfl⟩
    · cases b with
      | grad => exact absurd rfl hgrad
      | frame1 => exact ⟨rfl, rfl⟩
      | filt => exact ⟨rfl, rfl⟩
    · exact ⟨rfl, rfl⟩
    · exact ⟨rfl, rfl⟩
  have hinvalid : s.sourceValid b = false := by
    rcases hvalid with ⟨rfl, hv⟩ | ⟨rfl, hv⟩ | ⟨rfl, hv⟩ <;> exact hv
  exact ⟨s.raise .sourceInvalid, exec_of_source_invalid hbusy hwf hsource hinvalid, rfl, rfl, rfl,
    s.raise_frame .sourceInvalid⟩

end Sys2Proof.Machine
end

section
/-! PROOF. What survives and what is forgotten (spec/70_reset_and_hazards.md): `CLEAR` against reset (R321), a decode
after another run (R322), and the host's writes while `BUSY` (R330). -/

namespace Sys2Proof.Machine

/-! ### `CLEAR` and reset -/

/-- `CLEAR` leaves `STATUS` as reset does (R254, R44). -/
theorem State.release_status (s : State) : s.release.status = Status.reset := rfl

/-- `CLEAR` keeps `CMD`, which holds the word of `CLEAR`, and `IN_LEN`; every other register it sets as reset does. -/
theorem State.readReg_release {s : State} (hcmd : s.cmd = 0) {r : RegName} (hr : r ≠ .inLen) :
    s.release.readReg r = (State.resetOf s.params).readReg r := by
  cases r with
  | cmd => exact hcmd
  | inLen => exact absurd rfl hr
  | status => exact congrArg Status.word s.release_status
  | err | width | height | maxval | variant | out0Len | out1Len => rfl

/-- The word 0 is `CLEAR` (30 R97). -/
theorem decode_zero : decode 0 = .ok .clear := decode_encode (i := .clear) rfl

/-- The host's `CLEAR` takes effect in the step that writes it (R250, R254). -/
theorem step_clear {s : State} {rest : List Turn} (hbusy : s.status.state ≠ .busy)
    (hscript : s.script = .host (.writeReg 0 0) :: rest) :
    step s = .next ({ s with cmd := 0, script := rest } : State).release := by
  rw [stepRunsTheCommandTheHostWrites s 0 .clear rest hbusy hscript decode_zero]
  exact exec_of_not_busy (s := { s with cmd := 0, script := rest }) hbusy .clear

/-- Settles O14. -/
theorem clearMatchesResetButForInLen : Obligations.ClearMatchesResetButForInLen := by
  intro s rest r hbusy hr hscript
  exact ⟨_, step_clear hbusy hscript, State.readReg_release (s := { s with cmd := 0, script := rest }) rfl hr, rfl⟩

/-! ### A decode after another run -/

/-- The valid bits are part of `STATUS` (10 R23). -/
theorem sameValid_of_status_eq {s t : State} (h : s.status = t.status) : sameValid s t := by
  simp [sameValid, h]

/-- Two cleared runs hold the same header and lengths. -/
theorem runCleared.agree {t t' : State} (h : runCleared t) (h' : runCleared t') :
    sameHeader t t' ∧ sameLengths t t' := by
  obtain ⟨-, -, -, -, -, -, hw, hh, hm, hv, h0, h1⟩ := h
  obtain ⟨-, -, -, -, -, -, hw', hh', hm', hv', h0', h1'⟩ := h'
  simp [sameHeader, sameLengths, *]

/-- `STATUS` after a decode that fails: `ERROR`, and nothing else of it is left (40 R150). -/
theorem decodeFailed.status_eq {s t : State} {e : ErrCode} (h : decodeFailed s t e) :
    t.status = { Status.reset with state := .error } := by
  obtain ⟨hstate, hphase, -, ⟨hframe1, hfilt, hgrad, hconv, hout0, hout1, -⟩, -⟩ := h
  rcases hs : t.status with ⟨state, phase, vFrame1, vFilt, vGrad, vConv, vOut0, vOut1⟩
  simp_all [Status.reset]

/-- `STATUS` after a decode that succeeds: `V_FRAME1`, and whether the command goes on (40 R131, R149; 45 R257). -/
theorem status_commitImage_finish {s : State} (hbusy : s.status.state = .busy) (img : DecodedImage) (q : Phase) :
    ((s.clearRun.commitImage img).finish q).status =
      { Status.reset with state := if q = .none then .done else .busy, phase := q, vFrame1 := true } := by
  unfold State.finish
  split
  case isTrue hq => rw [hq]; rfl
  case isFalse hq => rw [← hbusy]; rfl

/-- Settles O24: the stream decides between success and failure, and either end overwrites all that is compared. -/
theorem decodeForgetsTheRunBefore : Obligations.DecodeForgetsTheRunBefore := by
  intro s s' t t' i q hi hs hs' hparams hstream ht ht'
  cases hdecode : decodeStream s.params s.stream with
  | ok img =>
    have hdecode' : decodeStream s'.params s'.stream = .ok img := by rwa [← hparams, ← hstream]
    obtain rfl : _ = t := Host.Outcome.next.inj ((exec_decode_of_ok hi hs hdecode).symm.trans ht)
    obtain rfl : _ = t' := Host.Outcome.next.inj ((exec_decode_of_ok hi hs' hdecode').symm.trans ht')
    have ⟨hbusy, _⟩ := hs
    have ⟨hbusy', _⟩ := hs'
    have hstatus := (status_commitImage_finish hbusy img q).trans (status_commitImage_finish hbusy' img q).symm
    refine ⟨by simp [sameHeader], by simp [sameLengths], sameValid_of_status_eq hstatus, hstatus, fun herror => ?_,
      fun _ k _ => by simp [Memory.setBytes]⟩
    rw [status_commitImage_finish hbusy] at herror
    split at herror <;> cases herror
  | error e =>
    have hdecode' : decodeStream s'.params s'.stream = .error e := by rwa [← hparams, ← hstream]
    obtain ⟨u, hu, hfailed⟩ := exec_decode_of_error hi hs hdecode
    obtain ⟨u', hu', hfailed'⟩ := exec_decode_of_error hi hs' hdecode'
    obtain rfl : u = t := Host.Outcome.next.inj (hu.symm.trans ht)
    obtain rfl : u' = t' := Host.Outcome.next.inj (hu'.symm.trans ht')
    have hstatus := hfailed.status_eq.trans hfailed'.status_eq.symm
    obtain ⟨hstate, -, herr, hcleared, -⟩ := hfailed
    obtain ⟨-, -, herr', hcleared', -⟩ := hfailed'
    have ⟨hheader, hlengths⟩ := hcleared.agree hcleared'
    exact ⟨hheader, hlengths, sameValid_of_status_eq hstatus, hstatus, fun _ => herr.trans herr'.symm,
      fun hok => absurd hstate hok⟩

/-! ### Writes while `BUSY` -/

/-- A `BUSY` block drops every host write to a location that exists (20 R69): of the accesses that change something, the
writes need a block that is not `BUSY`, and the others are reads. -/
theorem hostAccess_write_of_busy {a : HostAct} {s : State} (hbusy : s.status.state = .busy) (hwrite : a.isWrite = true)
    (hexists : locationExists s.params a = true) : hostAccess a s = .next s := by
  rcases hostAccess_cases a s with ⟨c, -, hcmd⟩ | ⟨r, hrefused⟩ | hsame | ⟨v, -, hidle, -⟩ | ⟨k, v, -, hidle, -⟩ |
    ⟨d, hread, -⟩
  · rcases hostWriteCmd_cases c s with ⟨-, hdropped⟩ | ⟨hidle, -⟩ | ⟨hidle, -⟩
    · exact hcmd.trans hdropped
    · exact absurd hbusy hidle
    · exact absurd hbusy hidle
  · exact absurd hrefused (hostAccess_not_refused hexists r)
  · exact hsame
  · exact absurd hbusy hidle
  · exact absurd hbusy hidle
  · exact absurd (hwrite.symm.trans hread) nofun

/-- Settles O48. -/
theorem busyDropsHostWrites : Obligations.BusyDropsHostWrites := by
  intro s a rest hbusy hwrite hexists hscript
  rw [step_of_access hscript]
  exact hostAccess_write_of_busy (s := { s with script := rest }) hbusy hwrite hexists

end Sys2Proof.Machine
end
